-- ==== Sys2Proof/Word.lean ====
section
/-! DEFINITION. The byte: the one bit-vector type of the model (rule R183: frames, slots, stamps and replies are bytes), and the
two levels of the pair (R57). -/

namespace Sys2Proof

/-- One byte as the wires, the array and the replies carry it. -/
abbrev Byte := BitVec 8

/-- A level of the pair, for half a bit time (R57). -/
inductive Level where
  | dominant | recessive
  deriving DecidableEq, Repr

end Sys2Proof
end

