-- ==== Sys2Proof/Syntax.lean ====
section
/-! DEFINITION. The commands: one constructor per row of spec/opcode_table.json, in the table's order. The table gives the
rows no operands and no bits; each operand below is what the rule of the row needs from outside the part (log 2). -/

namespace Sys2Proof

/-- A command: what the host, a pin, the pair, the supply or the end of an operation does to the part, or the taking of a
notice that one block has given another. Payloads are the bytes after the payload length (R189, Table 11-5). -/
inductive Instr where
  /-- TRANSACTION_BEGIN (R170): HCS_N falls and the first byte is taken as the select code. -/
  | transactionBegin (select : Byte)
  /-- TRANSACTION_END (R171): HCS_N rises. -/
  | transactionEnd
  /-- COMMISSION (R173, R174). -/
  | commission (payload : List Byte)
  /-- LOAD_TIME (R32). -/
  | loadTime (payload : List Byte)
  /-- OBSERVE (R37 to R39). -/
  | observe (payload : List Byte)
  /-- SET_OPERATOR_ENTRY (R53, R54). -/
  | setOperatorEntry (payload : List Byte)
  /-- READ_STATUS (R175). -/
  | readStatus (payload : List Byte)
  /-- READ_SOURCES (R56). -/
  | readSources (payload : List Byte)
  /-- READ_PEERS (R88). -/
  | readPeers (payload : List Byte)
  /-- READ_CANDIDATES (R119). -/
  | readCandidates (payload : List Byte)
  /-- READ_STAMP (R153). -/
  | readStamp (payload : List Byte)
  /-- READ_HISTORY (R168). -/
  | readHistory (payload : List Byte)
  /-- READ_EVENT (R180). -/
  | readEvent (payload : List Byte)
  /-- EVENT_RESPONSE_COMPLETE (R180): the last byte of the response has been clocked out. -/
  | eventResponseComplete
  /-- PREPARE_EXTRACTION (R166). -/
  | prepareExtraction (payload : List Byte)
  /-- RESET, the command (R176). -/
  | resetCommand (payload : List Byte)
  /-- UNKNOWN_COMMAND (R172): a request whose command code is none of Table 10-1. -/
  | unknownCommand (code : Byte) (payload : List Byte)
  /-- POWER_ON_RESET (R181): power is applied. -/
  | powerOnReset
  /-- PIN_RESET (R181): RESET_N falls. -/
  | pinReset
  /-- RESET_END (R182): the last of the merged resets ends. -/
  | resetEnd
  /-- PPS_PULSE (R20 to R31): a rising edge on PPS_IN at the given time, in ticks of 100 ns (log 8). -/
  | ppsPulse (stamp : Nat)
  /-- WINDOW_CLOSE (R24, R25). -/
  | windowClose
  /-- FLYWHEEL_EDGE (R25). -/
  | flywheelEdge
  /-- REFCLK_LOST (R29): 5 µs without a cycle. -/
  | refclkLost
  /-- REFCLK_RESTORED (R31): this many further cycles without a gap (log 13). -/
  | refclkRestored (cycles : Nat)
  /-- SOURCE_STALE (R40) of one source. -/
  | sourceStale (source : Nat)
  /-- APPLIED_CHANGE_NOTICE (R47). -/
  | appliedChangeNotice
  /-- GRACE_EXPIRY (R47). -/
  | graceExpiry
  /-- SOURCE_SCALE_NOTICE (R46). -/
  | sourceScaleNotice
  /-- CANDIDATE_NOTICE (R116). -/
  | candidateNotice
  /-- PEER_SILENT (R86) of one address. -/
  | peerSilent (address : Nat)
  /-- PEER_PURGE (R87) of one address. -/
  | peerPurge (address : Nat)
  /-- PEER_TABLE_SCALE_NOTICE (R83). -/
  | peerTableScaleNotice
  /-- FRAME_START_HEARD (R59). -/
  | frameStartHeard
  /-- BUS_QUIET_INSTANT (R57). -/
  | busQuietInstant
  /-- TRANSMIT_START (R59): the station has waited this many bit times of quiet (log 22). -/
  | transmitStart (waited : Nat)
  /-- FRAME_COMPLETED (R64): the last CRC bit has been sent and read back, over what the other stations drove on the pair, half-bit
  by half-bit from the frame start and recessive beyond the list, which is empty where it is left out (R58). -/
  | frameCompleted (others : List Level := [])
  /-- READ_BACK_MISMATCH (R58, R61): what the other stations drove, in the same terms. -/
  | readBackMismatch (others : List Level := [])
  /-- FRAME_RECEIVED (R65): the whole bytes between frame start and frame end, and how many bits beyond them. -/
  | frameReceived (bytes : List Byte) (oddBits : Nat)
  /-- COURTESY_SPAN_END (R60): the pair has been quiet for this many bit times since its quiet instant (log 22). -/
  | courtesySpanEnd (quiet : Nat)
  /-- LISTEN_SPAN_COMPLETE (R69). -/
  | listenSpanComplete
  /-- CADENCE_PERIOD_DUE (R72). -/
  | cadencePeriodDue
  /-- VIEW_NOTICE (R73). -/
  | viewNotice
  /-- ARMING_NOTICE (R74). -/
  | armingNotice
  /-- REPORT_NOTICE (R44). -/
  | reportNotice
  /-- OPERATOR_NOTICE (R52). -/
  | operatorNotice
  /-- PEER_NOTICE (R85). -/
  | peerNotice
  /-- CANDIDATE_SCALE_NOTICE (R92). -/
  | candidateScaleNotice
  /-- TIME_BASE_NOTICE (R91). -/
  | timeBaseNotice
  /-- HAND_OVER (R123). -/
  | handOver
  /-- SCALE_YIELDED (R132). -/
  | scaleYielded
  /-- SOURCE_NOTICE (R129). -/
  | sourceNotice
  /-- PEER_SCALE_NOTICE (R129). -/
  | peerScaleNotice
  /-- SECOND_NOTICE (R139). -/
  | secondNotice
  /-- LANE_ARMING_NOTICE (R147). -/
  | laneArmingNotice
  /-- STAMP_STREAM_DONE (R152). -/
  | stampStreamDone
  /-- SCAN_END (R159). -/
  | scanEnd
  /-- PROGRAM_COMPLETE (R162): the 20 bytes that the cells of the slot read at the read-back (log 24). -/
  | programComplete (readBack : List Byte)
  /-- VOID_COMPLETE (R163). -/
  | voidComplete
  /-- ERASE_COMPLETE (R164): the bytes that the page reads at the check, erased beyond the end of the list (log 24). -/
  | eraseComplete (readBack : List Byte)
  /-- POWER_FAILURE (R182): the supply is lost. -/
  | powerFailure
  deriving DecidableEq, Repr

end Sys2Proof
end

