-- ==== Sys2Proof/Decode.lean ====
section
/-! DEFINITION. The command that a word spells, and the command that a request spells. No row of spec/opcode_table.json gives bits
(the reader's counts: no row with fixed bits, none with fields), so no word spells a command (log 2). The host spells its
commands in the bytes of a request (R183, R189). -/

namespace Sys2Proof

/-- The command spelled by the `nbits` bits of `w`: none, because the table gives no row any bits. -/
def decodeTableWord (_nbits _w : Nat) : Option Instr := none

/-- The command of a command code, in the order of Table 10-1 from 0x01 (R183); any other code is an unknown command (R172). -/
def requestCommand (code : Byte) (payload : List Byte) : Instr :=
  match code.toNat with
  | 1 => .commission payload
  | 2 => .loadTime payload
  | 3 => .observe payload
  | 4 => .setOperatorEntry payload
  | 5 => .readStatus payload
  | 6 => .readSources payload
  | 7 => .readPeers payload
  | 8 => .readCandidates payload
  | 9 => .readStamp payload
  | 10 => .readHistory payload
  | 11 => .readEvent payload
  | 12 => .prepareExtraction payload
  | 13 => .resetCommand payload
  | _ => .unknownCommand code payload

/-- The command that the bytes of a request spell (R170, Table 11-4): the select code 0x5C, the command code, the payload length
and as many payload bytes; none while the request is incomplete, and none behind another select code. -/
def readRequest : List Byte → Option Instr
  | select :: code :: length :: payload =>
    if select = 0x5C#8 ∧ payload.length = length.toNat then some (requestCommand code payload) else none
  | _ => none

/-- The byte of eight bits of the control port, most significant first (R183). -/
def byteOfBits (bits : List Bool) : Byte := BitVec.ofNat 8 (bits.foldl (fun n bit => 2 * n + bit.toNat) 0)

/-- The whole bytes of the bits sampled on HDI, most significant bit first within each (R183). -/
def bytesOfBits : List Bool → List Byte
  | a :: b :: c :: d :: e :: f :: g :: h :: rest => byteOfBits [a, b, c, d, e, f, g, h] :: bytesOfBits rest
  | _ => []

/-- The command that the bits sampled on HDI spell (R170, R183). -/
def readRequestBits (bits : List Bool) : Option Instr := readRequest (bytesOfBits bits)

end Sys2Proof
end

