-- ==== Sys2Proof/Config.lean ====
section
/-! DEFINITION. The constants of the part and the free values: what the spec leaves open, as constants without a body.
The free values are applied to State.free, a counter of the model, or to a counter and an index. -/

namespace Sys2Proof.Config

/-- Ticks of REFCLK in one second (02_the_time_base.md, section 2.2). -/
def ticksPerSecond : Nat := 10000000

/-- Half a second, in ticks: the least spacing of edges (R18, R28) and the least hold-off (R30). -/
def halfSecond : Nat := 5000000

/-- The span by which the hold-off may exceed half a second: 20 ms (R30). -/
def holdOffSpread : Nat := 200000

/-- The calendar limit, the label count of 2100-01-01 00:00:00 (R4). -/
def calendarLimit : Nat := 4039372800

/-- Days from day 0 to the calendar limit (R4, R5). -/
def calendarDays : Nat := 46752

/-- Minutes from minute 0 to the calendar limit (R5). -/
def calendarMinutes : Nat := 67322880

/-- One past the largest T (R1). -/
def countEnd : Nat := 4294967296

/-- The window tolerance in force while no COMMISSION has been accepted, in µs (R20, R35). -/
def dormantTolerance : Nat := 1000

/-- FREE (log 5): which order of the four blocks an edge takes (R117). -/
opaque edgeOrder : Nat → BitVec 8

/-- FREE (log 9): how far beyond 500 ms the hold-off of an edge lasts (R30). -/
opaque holdOff : Nat → BitVec 32

/-- FREE (log 14): the day of a flag-only leap derived from a label out of calendar range (R42). -/
opaque leapDay : Nat → BitVec 32

/-- FREE (log 20): how many more of a second's stamps have been sent when the host reads one (R152, R153). -/
opaque stampsSent : Nat → BitVec 8

/-- FREE (log 23): the byte a cell is left with by an operation that a reset cuts short (R169). -/
opaque residue : Nat → Nat → BitVec 8

end Sys2Proof.Config
end

