-- ==== Sys2Proof/Machine/State.lean ====
section
/-! DEFINITION. The state of the part, block by block, as plain data, with its reset values, and the reasons a step can stop.
A field marked MODEL is the model's own; its docstring says which rule implies it. -/

namespace Sys2Proof.Machine

/-! ## Keys and the calendar (01_time_counts_and_the_calendar_unit.md) -/

/-- The kinds of a change (R11). -/
inductive ChangeKind where
  | leapInsert | leapDelete | offsetSet | localShift
  deriving DecidableEq, Repr

/-- What a change alters (R11): UTC, or a zone by its number. -/
inductive Target where
  | utc
  | zone (z : Nat)
  deriving DecidableEq, Repr

/-- A key (R11). `day` is the when: a day number, or a minute number for a LOCAL_SHIFT. The value is a D for an OFFSET_SET
and minutes for a LOCAL_SHIFT. -/
structure Key where
  kind : ChangeKind
  target : Target
  day : Nat
  value : Option Int
  deriving DecidableEq, Repr

/-- The calendar fields of a label, before they are packed (R7, R8). -/
structure Calendar where
  year : Nat
  month : Nat
  day : Nat
  hour : Nat
  minute : Nat
  second : Nat
  weekday : Nat
  deriving DecidableEq, Repr

/-- The Calendar Unit's answer to a conversion (R8, R9). -/
structure CalendarAnswer where
  outOfRange : Bool
  fields : Calendar
  deriving DecidableEq, Repr

/-! ## The Time Base (02_the_time_base.md) -/

/-- Whether T has been loaded since reset (R19). -/
inductive TimeState where
  | unset | set
  deriving DecidableEq, Repr

/-- How edges are being produced (R20). -/
inductive PulseState where
  | seeking | locked | bridging | flywheel | untimed
  deriving DecidableEq, Repr

/-- Whether REFCLK is there (R29, R31). -/
inductive ClockStanding where
  | present | lost | restored
  deriving DecidableEq, Repr

/-- The load indication an edge carries (R18, R33). -/
inductive LoadIndication where
  | noLoad | set
  | stepped (delta : Int)
  deriving DecidableEq, Repr

/-- The Time Base's state (the table at the head of its chapter). -/
structure TimeBase where
  /-- T, the TAI second count (R1). -/
  t : Nat
  timeState : TimeState
  pulseState : PulseState
  /-- The tick of the current second's nominal start (R20). -/
  nominal : Option Nat
  /-- The τ in force for the awaited window, in µs (R20). -/
  tolerance : Nat
  missedRun : Nat
  relockRun : Nat
  rephaseRun : Nat
  lastStray : Option Nat
  lastEdge : Option Nat
  pendingLoad : Option Nat
  runtCount : Nat
  clock : ClockStanding
  cycleRun : Nat
  /-- MODEL: the pulse state as the most recent edge left it, which READ_STATUS reports (R19, R175; log 45). -/
  edgePulse : PulseState
  /-- MODEL: the awaited window has held an in-window pulse (R23, R25). -/
  windowHit : Bool
  /-- MODEL: RUNT_PULSE has been raised since the last edge (R23). -/
  runtReported : Bool
  /-- MODEL: the length in ticks of the hold-off that follows the last edge (R30), a free value at each edge (log 9). -/
  holdOff : Nat
  deriving DecidableEq, Repr

/-- R35. -/
def TimeBase.reset : TimeBase :=
  { t := 0, timeState := .unset, pulseState := .seeking, nominal := none, tolerance := Config.dormantTolerance
    missedRun := 0, relockRun := 0, rephaseRun := 0, lastStray := none, lastEdge := none, pendingLoad := none
    runtCount := 0, clock := .present, cycleRun := 0, edgePulse := .seeking, windowHit := false, runtReported := false
    holdOff := Config.halfSecond }

/-! ## Source Intake (03_source_intake_and_the_operator_entry.md) -/

/-- A reference's leap flag (Table 3-2). -/
inductive LeapIndicator where
  | noLeap | insert | delete
  deriving DecidableEq, Repr

/-- An announced zone change (Table 3-2): the zone, the new offset in minutes, the minute number. -/
structure LocalChange where
  zone : Nat
  offset : Int
  minute : Nat
  deriving DecidableEq, Repr

/-- An observation (Table 3-2). -/
structure Observation where
  d : Nat
  leap : LeapIndicator
  day : Option Nat
  change : Option LocalChange
  deriving DecidableEq, Repr

/-- Where a source stands (R36). -/
inductive SourceStatus where
  | empty | settling | fresh | stale | discordant
  deriving DecidableEq, Repr

/-- Why a FRESH source is or is not counted in stances (R36). -/
inductive Standing where
  | current | lagging | early
  deriving DecidableEq, Repr

/-- A source record (Table 3-1). -/
structure SourceRecord where
  status : SourceStatus
  standing : Standing
  last : Option Observation
  repeats : Nat
  age : Nat
  settled : Option Observation
  unusable : Bool
  /-- MODEL: the keys that the last derivation gave, none while the mark is set (R41, R43). -/
  keys : List Key
  deriving DecidableEq, Repr

/-- R51. -/
def SourceRecord.reset : SourceRecord :=
  { status := .empty, standing := .current, last := none, repeats := 0, age := 0, settled := none, unusable := false
    keys := [] }

/-- The applied-change record (R47). -/
structure AppliedChange where
  kind : ChangeKind
  dBefore : Nat
  grace : Nat
  deriving DecidableEq, Repr

/-- What the operator decides (Table 3-3). -/
inductive Decision where
  | affirm | deny
  deriving DecidableEq, Repr

/-- An operator item (Table 3-3), with its position in the entry, 1 or 2, which it keeps (R53, R55; log 47). -/
structure OperatorItem where
  position : Nat
  key : Key
  decision : Decision
  deriving DecidableEq, Repr

/-- Source Intake's state. -/
structure SourceIntake where
  sources : List SourceRecord
  applied : Option AppliedChange
  operator : List OperatorItem
  deriving DecidableEq, Repr

/-- R51, R56. -/
def SourceIntake.reset : SourceIntake :=
  { sources := [SourceRecord.reset, SourceRecord.reset, SourceRecord.reset, SourceRecord.reset], applied := none
    operator := [] }

/-! ## Views and the Scale Bus Interface (04_the_scale_bus.md) -/

/-- How the station came by its D (R120). -/
inductive ScaleStatus where
  | unknown | stored | confirmed
  deriving DecidableEq, Repr

/-- How far the station has committed to a change (Table 6-1). -/
inductive CandidateState where
  | proposed | accepted | armed
  deriving DecidableEq, Repr

/-- A station's position on a change (Table 6-1). -/
inductive Stance where
  | witness | dissent | abstain
  deriving DecidableEq, Repr

/-- One candidate entry of a view (R63). -/
structure ViewEntry where
  key : Key
  state : CandidateState
  stance : Stance
  deriving DecidableEq, Repr

/-- Whether and how the station takes part (R67 to R70). -/
inductive Participation where
  | dormant | listening | active | muted
  deriving DecidableEq, Repr

/-- Why a frame is sent (R63), in ascending rank (R71). -/
inductive Cause where
  | periodic | changed | joining
  deriving DecidableEq, Repr

/-- A VIEW frame of our own: the fields a sender places in it (R63, R64). -/
structure ViewFrame where
  cause : Cause
  sender : Nat
  version : Nat
  t : Nat
  status : ScaleStatus
  pulseState : PulseState
  d : Nat
  entries : List ViewEntry
  deriving DecidableEq, Repr

/-- MODEL: what stands on the pair as the station hears it (R57, R59, R65, R75; log 22). -/
inductive Pair where
  /-- The bus has reached its quiet instant and no frame has started since. -/
  | quiet
  /-- A frame of another station whose start was heard. -/
  | frame
  /-- The station drives a frame of its own. -/
  | own
  /-- Transitions of a frame whose start was not heard, because a reset held (R75). -/
  | unheard
  deriving DecidableEq, Repr

/-- MODEL: the frame whose end the last quiet instant was, until FRAME_RECEIVED tells of it: the frame end and the quiet instant are
one moment (R57), and their two commands come in either order (log 22). -/
inductive FrameEnd where
  /-- No frame, or one of which FRAME_RECEIVED has told. -/
  | noFrame
  /-- A frame of another station that was heard from its start. -/
  | heard
  /-- A frame that is not received: the station's own (R62), or one that began or stood on the pair while a reset held (R75). -/
  | unreceived
  deriving DecidableEq, Repr

/-- The Scale Bus Interface's state. -/
structure ScaleBus where
  participation : Participation
  listenCount : Nat
  cadence : Nat
  critical : Bool
  prompt : Bool
  request : Option Cause
  changedSent : Bool
  collisionRun : Nat
  courtesyHold : Bool
  buffer : Option ViewFrame
  discards : Nat
  busError : Bool
  pair : Pair
  ended : FrameEnd
  deriving DecidableEq, Repr

/-- R75. -/
def ScaleBus.reset : ScaleBus :=
  { participation := .dormant, listenCount := 0, cadence := 0, critical := false, prompt := false, request := none
    changedSent := false, collisionRun := 0, courtesyHold := false, buffer := none, discards := 0, busError := false
    pair := .quiet, ended := .noFrame }

/-! ## The Peer Table (05_the_peer_table.md) -/

/-- Whether a station is being heard (Table 5-1). -/
inductive PeerState where
  | live | silent
  deriving DecidableEq, Repr

/-- What an entry holds of the sender's view (Table 5-1). -/
structure PeerView where
  version : Nat
  status : ScaleStatus
  d : Nat
  timeState : TimeState
  pulseState : PulseState
  entries : List ViewEntry
  deriving DecidableEq, Repr

/-- A peer entry (Table 5-1). The view is absent while no view of the sender could be read (log 16). -/
structure PeerEntry where
  address : Nat
  state : PeerState
  age : Nat
  view : Option PeerView
  tDifference : Option Int
  timeSplit : Bool
  scaleSplit : Bool
  deriving DecidableEq, Repr

/-- The Peer Table's state. -/
structure PeerTable where
  entries : List PeerEntry
  entryInvalid : Bool
  deriving DecidableEq, Repr

/-- R88. -/
def PeerTable.reset : PeerTable := { entries := [], entryInvalid := false }

/-! ## The Candidate Table (06_the_candidate_table.md) -/

/-- What armed a record (Table 6-1). -/
inductive ArmedBy where
  | tally | late | follow
  deriving DecidableEq, Repr

/-- A candidate record (Table 6-1). -/
structure Candidate where
  key : Key
  epoch : Int
  state : CandidateState
  armedBy : Option ArmedBy
  stance : Stance
  pro : Nat
  con : Nat
  peerArmed : Nat
  /-- Origins (R98): the own sources that offer the key. -/
  sources : List Nat
  /-- Origins (R98): the operator mark. -/
  operator : Option Decision
  /-- Origins (R98): the listing peers that list the key. -/
  peers : List Nat
  firstSeen : Nat
  deriving DecidableEq, Repr

/-- Why a key is barred (R97). -/
inductive BarReason where
  | conflicted | applied
  deriving DecidableEq, Repr

/-- An entry of the barred list (R97). -/
structure Barred where
  key : Key
  reason : BarReason
  epoch : Int
  deriving DecidableEq, Repr

/-- The station's view, as it is compared (R114). -/
structure View where
  records : List ViewEntry
  d : Option Nat
  status : ScaleStatus
  timeState : TimeState
  pulseState : PulseState
  deriving DecidableEq, Repr

/-- The Candidate Table's state. -/
structure CandidateTable where
  records : List Candidate
  barred : List Barred
  version : Nat
  lastView : View
  tableFull : Bool
  /-- The D with which the epochs were last derived (R92). -/
  epochD : Option Nat
  /-- MODEL: the ACCEPTED and ARMED records as the edge pass, or the pass for a scale notice of the same edge's work, has left them:
  what the Lane Stamp Generator reads for the second (R139; log 21). -/
  reading : List Candidate
  deriving DecidableEq, Repr

/-- R118. -/
def CandidateTable.reset : CandidateTable :=
  { records := [], barred := [], version := 0
    lastView := { records := [], d := none, status := .unknown, timeState := .unset, pulseState := .seeking }
    tableFull := false, epochD := none, reading := [] }

/-! ## Scale State (07_scale_state_and_change_application.md) -/

/-- An entry of the applied list (R123, R126). -/
structure Applied where
  key : Key
  void : Bool
  deriving DecidableEq, Repr

/-- Scale State's state. -/
structure ScaleState where
  d : Option Nat
  status : ScaleStatus
  /-- The four zone offsets, in minutes (R121). -/
  zones : List Int
  zonesFromStore : Bool
  marker : Bool
  utcStep : Bool
  zoneSteps : List Bool
  /-- The scale tally: each value that some station stands for, with its count (R129). -/
  tally : List (Nat × Nat)
  yieldValue : Option Nat
  yieldTimer : Nat
  applied : List Applied
  deriving DecidableEq, Repr

/-- R122. -/
def ScaleState.reset : ScaleState :=
  { d := none, status := .unknown, zones := [0, 0, 0, 0], zonesFromStore := false, marker := false, utcStep := false
    zoneSteps := [false, false, false, false], tally := [], yieldValue := none, yieldTimer := 0, applied := [] }

/-! ## The Lane Stamp Generator (08_lane_stamps.md) -/

/-- What a lane presents (Table 8-1). -/
inductive LaneKind where
  | tai | utc | smear | localTime
  deriving DecidableEq, Repr

/-- A lane profile (Table 8-1). -/
structure LaneProfile where
  kind : LaneKind
  zone : Option Nat
  lead : Nat
  window : Option Nat
  deriving DecidableEq, Repr

/-- A smear record (Table 8-3); its direction is its key's kind. -/
structure Smear where
  key : Key
  baseD : Nat
  x : Int
  t0 : Int
  width : Int
  deriving DecidableEq, Repr

/-- How a second is to be taken (R142). -/
inductive StampKind where
  | unscaled | outOfRange | stepped | leap | smearing | normal
  deriving DecidableEq, Repr

/-- A coming zone shift (R146). -/
inductive ShiftIndicator where
  | noShift | forward | backward
  deriving DecidableEq, Repr

/-- A stamp (Table 8-2). The calendar is absent where every calendar field is packed as zero (R143). -/
structure Stamp where
  lane : Nat
  laneKind : LaneKind
  kind : StampKind
  count : Nat
  correction : Nat
  calendar : Option Calendar
  d : Nat
  leap : LeapIndicator
  shift : ShiftIndicator
  deriving DecidableEq, Repr

/-- A lane's latest stamp with the T of its second (R153). -/
structure LatestStamp where
  stamp : Stamp
  t : Nat
  deriving DecidableEq, Repr

/-- Whether stamps are being sent (R152). -/
inductive StreamState where
  | idle | sending
  deriving DecidableEq, Repr

/-- The Lane Stamp Generator's state. -/
structure LaneStamps where
  laneCount : Nat
  profiles : List LaneProfile
  smears : List (Option Smear)
  latest : List (Option LatestStamp)
  stream : StreamState
  /-- MODEL: how many of the second's stamps the host has found sent while the stream is SENDING, lane 0 first (R152, R153; log
  20). -/
  sent : Nat
  deriving DecidableEq, Repr

/-- R154. -/
def LaneStamps.reset : LaneStamps :=
  { laneCount := 0, profiles := [], smears := List.replicate 8 none, latest := List.replicate 8 none, stream := .idle
    sent := 0 }

/-! ## The History Store (09_the_history_store.md) -/

/-- The nonvolatile array as (address, byte) pairs in canonical form: addresses strictly rising, no entry 0xFF, which is
what an unlisted address reads (R155). -/
abbrev Memory := List Host.Cell

/-- The steps that a record tells (R156). -/
inductive HistoryKind where
  | leapInsert | leapDelete | offsetSet | localShift | acquired | yielded
  deriving DecidableEq, Repr

/-- A record as Scale State posts it, zone offsets in minutes (R134). -/
structure HistoryRecord where
  kind : HistoryKind
  target : Target
  epochT : Nat
  value : Int
  dAfter : Nat
  zones : List Int
  deriving DecidableEq, Repr

/-- What the store is doing (R158 to R167). -/
inductive StoreState where
  | scanning | idle | programming | erasing | inhibited | failed
  deriving DecidableEq, Repr

/-- MODEL: the operation in flight and what it writes (R161 to R164). -/
inductive StoreOperation where
  | noOperation
  /-- The program of the slot at the write pointer with these bytes and this sequence. -/
  | program (bytes : List Byte) (sequence : Nat)
  /-- The voiding of the slot at the write pointer, whose cells read these bytes. -/
  | voiding (bytes : List Byte) (sequence : Nat)
  /-- The erase of the page of the write pointer. -/
  | erase
  deriving DecidableEq, Repr

/-- The classes of a slot (R157). -/
inductive SlotClass where
  | empty | valid | torn | corrupt
  deriving DecidableEq, Repr

/-- The History Store's state. -/
structure HistoryStore where
  array : Memory
  state : StoreState
  queue : List HistoryRecord
  pointer : Nat
  /-- The next sequence; none is EXHAUSTED. -/
  nextSequence : Option Nat
  failureRun : Nat
  eraseRun : Nat
  inhibitPending : Bool
  gapFlag : Bool
  operation : StoreOperation
  deriving DecidableEq, Repr

/-- R169: every field but the array, which the reset keeps. The pointer and the sequence are set by the scan (log 25). -/
def HistoryStore.reset (array : Memory) : HistoryStore :=
  { array := array, state := .scanning, queue := [], pointer := 0, nextSequence := some 1, failureRun := 0, eraseRun := 0
    inhibitPending := false, gapFlag := false, operation := .noOperation }

/-! ## Events and the Control Port (10_control_port_commissioning_and_events.md) -/

/-- The reset kinds (R181). -/
inductive ResetCause where
  | power | pin | command
  deriving DecidableEq, Repr

/-- Why ADDRESS_CLASH is raised (R61, R62). -/
inductive ClashCause where
  | retryLimit | ownAddressHeard
  deriving DecidableEq, Repr

/-- Where an admitted key came from (Table 6-2). -/
inductive Origin where
  | source | operator | peer | follow
  deriving DecidableEq, Repr

/-- Why a record is demoted (R103). -/
inductive DemoteReason where
  | belowQuorum | notAhead | denied
  deriving DecidableEq, Repr

/-- Why a record is withdrawn (Table 6-2). -/
inductive WithdrawReason where
  | noOrigin | invalid
  deriving DecidableEq, Repr

/-- Why a record is removed as CONFLICTED (Table 6-2). -/
inductive ConflictReason where
  | rivalArmed | outvoted | tied
  deriving DecidableEq, Repr

/-- The causes of STORE_GAP (Table 9-1). -/
inductive GapCause where
  | queueFull | failed | inhibited
  deriving DecidableEq, Repr

/-- The causes of STORE_FAULT, each with what its subject names (R161, R163, R164). -/
inductive StoreFaultCause where
  | verify (slot : Nat) (sequence : Nat)
  | erase (page : Nat)
  | sequence (slot : Nat)
  deriving DecidableEq, Repr

/-- The event kinds with their subjects, in the order of Table 10-3. -/
inductive Event where
  | reset (cause : ResetCause)
  | commissioned (address lanes : Nat)
  | joined (address version : Nat)
  | addressClash (address : Nat) (cause : ClashCause)
  | busError (count : Nat)
  | timeSet
  | timeStepped (delta : Int)
  | pulseLost
  | relocked (offset : Int)
  | rephased (shift : Int)
  | runtPulse (count : Nat)
  | refclkLost
  | refclkRestored
  | sourceFresh (source d : Nat)
  | sourceStale (source age : Nat)
  | sourceDiscordant (source d own : Nat)
  | sourceReportInvalid (source : Nat) (key : Key)
  | peerJoined (address version : Nat)
  | peerSilent (address age : Nat)
  | peerDiscordant (address : Nat) (difference : Int)
  | peerEntryInvalid (address position kindTarget day : Nat)
  | candidateNew (key : Key) (origin : Origin)
  | candidateAccepted (key : Key) (pro con : Nat)
  | candidateDemoted (key : Key) (reason : DemoteReason)
  | candidateWithdrawn (key : Key) (reason : WithdrawReason)
  | candidateArmed (key : Key) (by_ : ArmedBy)
  | candidateExpired (key : Key)
  | candidateConflict (key : Key) (reason : ConflictReason)
  | candidateDropped (key : Key)
  | tableFull (key : Key)
  | changeApplied (key : Key) (after : Int) (void stepped : Bool)
  | scaleConfirmed (value count : Nat) (before : ScaleStatus)
  | scaleYielded (dBefore dAfter countAfter countBefore : Nat)
  | storeGap (cause : GapCause) (lost : Nat) (kind : HistoryKind) (epochT : Nat)
  | storeFault (cause : StoreFaultCause)
  deriving DecidableEq, Repr

/-- An event record: the event and the T at which it was raised, absent while the time state is UNSET (R177). -/
structure EventRecord where
  event : Event
  t : Option Nat
  deriving DecidableEq, Repr

/-- Where the current transaction stands (R170). -/
inductive Phase where
  | idle | ignoring | request | response
  deriving DecidableEq, Repr

/-- The status codes (10_control_port_commissioning_and_events.md, section 10.2). -/
inductive Status where
  | ok | busy | refused | range | late | versionMismatch | malformed
  deriving DecidableEq, Repr

/-- A reply: its status and its response bytes (R189, Table 11-4). -/
structure Reply where
  status : Status
  body : List Byte
  deriving DecidableEq, Repr

/-- MODEL: which record the response in progress returns (R180). -/
inductive EventRead where
  /-- The response in progress, if any, returns no event record. -/
  | noRecord
  /-- It returns the record at the head of the queue. -/
  | head
  /-- The record it returns has been displaced from the queue meanwhile. -/
  | displaced
  deriving DecidableEq, Repr

/-- The Control Port's state. -/
structure ControlPort where
  phase : Phase
  request : List Byte
  response : Option Reply
  queue : List EventRecord
  overflow : Nat
  resetCause : ResetCause
  resetPending : Bool
  eventRead : EventRead
  deriving DecidableEq, Repr

/-- R182: the Control Port as a reset leaves it, the RESET record posted. -/
def ControlPort.reset (cause : ResetCause) : ControlPort :=
  { phase := .idle, request := [], response := none, queue := [{ event := .reset cause, t := none }], overflow := 0
    resetCause := cause, resetPending := false, eventRead := .noRecord }

/-- The commission record's parameters (Table 10-2), but for the lanes and the initial zone offsets. -/
structure Params where
  address : Nat
  qmin : Nat
  hd : Nat
  ha : Nat
  p : Nat
  pc : Nat
  peerTimeout : Nat
  sourceTimeout : Nat
  nd : Nat
  yieldDelay : Nat
  tau : Nat
  deriving DecidableEq, Repr

/-! ## Notices between blocks -/

/-- The hand-over of an edge (R111). -/
structure HandOver where
  t : Nat
  timeState : TimeState
  pulseState : PulseState
  load : LoadIndication
  /-- The due records in order, each with its key and epoch. -/
  due : List (Key × Int)
  deriving DecidableEq, Repr

/-- The second notice (R136). -/
structure SecondNotice where
  t : Nat
  timeState : TimeState
  pulseState : PulseState
  load : LoadIndication
  d : Option Nat
  status : ScaleStatus
  zones : List Int
  marker : Bool
  utcStep : Bool
  zoneSteps : List Bool
  applied : List Applied
  /-- MODEL: a scale notice was given in step 5 of the same edge's work (R139). -/
  scaleGiven : Bool
  deriving DecidableEq, Repr

/-- One record of an arming notice (R115). -/
structure ArmedLeap where
  key : Key
  epoch : Int
  x : Int
  deriving DecidableEq, Repr

/-- The arming notice as the Lane Stamp Generator takes it (R115, R147). -/
structure LaneArming where
  armed : List ArmedLeap
  t : Nat
  deriving DecidableEq, Repr

/-- A candidate notice with its application report (R113, R116). -/
structure CandidateNotice where
  /-- A leap record entered or left ACCEPTED or ARMED. -/
  leapMoved : Bool
  /-- The keys removed as APPLIED. -/
  applied : List Key
  deriving DecidableEq, Repr

/-- A scale notice (R133). -/
structure ScaleNotice where
  d : Option Nat
  status : ScaleStatus
  /-- MODEL: the notice was given in step 5 of an edge's work, of which the second notice tells too (R139; log 21). -/
  ofEdge : Bool
  deriving DecidableEq, Repr

/-- MODEL: the notices given and not yet taken, oldest first, or their number where a notice carries nothing (log 4). -/
structure Mail where
  report : Nat
  operator : Nat
  peer : List (List Nat)
  candidateScale : List ScaleNotice
  sourceScale : List ScaleNotice
  peerTableScale : List ScaleNotice
  timeBase : Nat
  view : Nat
  arming : Nat
  laneArming : List LaneArming
  candidate : List CandidateNotice
  appliedChange : List (ChangeKind × Nat)
  source : Nat
  peerScale : Nat
  handOver : List HandOver
  second : List SecondNotice
  deriving DecidableEq, Repr

/-- No notice waits. -/
def Mail.reset : Mail :=
  { report := 0, operator := 0, peer := [], candidateScale := [], sourceScale := [], peerTableScale := [], timeBase := 0
    view := 0, arming := 0, laneArming := [], candidate := [], appliedChange := [], source := 0, peerScale := 0
    handOver := [], second := [] }

/-! ## The state -/

/-- The state of the part and the queue of the commands that wait. -/
structure State where
  /-- MODEL: the commands that wait, first in, first out. -/
  pending : List Instr
  tb : TimeBase
  si : SourceIntake
  sbi : ScaleBus
  pt : PeerTable
  ct : CandidateTable
  ss : ScaleState
  ls : LaneStamps
  hs : HistoryStore
  cp : ControlPort
  /-- The parameters of the accepted commission record (R174). -/
  params : Option Params
  /-- MODEL: notices that wait to be taken. -/
  mail : Mail
  /-- A reset holds (R181). -/
  held : Bool
  /-- The supply stands (R181, R182). -/
  powered : Bool
  /-- MODEL: the counter the free values are applied to. -/
  free : Nat
  deriving DecidableEq, Repr

/-- The volatile state as every reset leaves it, with the array kept, the cause retained and the RESET record posted
(R181, R182); what waits in the queue, the supply and the counter of the free values are not the part's to reset. -/
def State.afterReset (s : State) : State :=
  { s with
    tb := .reset, si := .reset, pt := .reset, ct := .reset, ss := .reset, ls := .reset, hs := .reset s.hs.array
    sbi := { ScaleBus.reset with pair := s.sbi.pair, ended := s.sbi.ended }
    cp := .reset s.cp.resetCause, params := none, mail := .reset, held := false }

/-- The machine right after a power-on reset has ended (R181, R182), the array erased (log 3). -/
def State.reset : State :=
  { pending := [], tb := .reset, si := .reset, sbi := .reset, pt := .reset, ct := .reset, ss := .reset, ls := .reset
    hs := .reset [], cp := .reset .power, params := none, mail := .reset, held := false, powered := true, free := 0 }

/-! ## Reasons to stop -/

/-- The faults. -/
inductive Fault where
  /-- An operation of the store was to act on a slot number above 63, which the array does not have (R155). Raised by
  PROGRAM_COMPLETE, VOID_COMPLETE and ERASE_COMPLETE. Safe: the machine stops where the part has no such state at all. -/
  | noSuchSlot (slot : Nat)
  deriving DecidableEq, Repr

/-- The refusals. -/
inductive Refusal where
  /-- The command has no meaning in this model. Raised by exec alone, for an arm that has none. Safe. -/
  | notModelled (mnemonic : String)
  deriving DecidableEq, Repr

end Sys2Proof.Machine
end

