-- ==== Sys2Proof/Machine/Calendar.lean ====
section
/-! DEFINITION. The Calendar Unit (01_time_counts_and_the_calendar_unit.md): pure functions of what a request hands it (R6). -/

namespace Sys2Proof.Machine

/-! ## Label counts -/

/-- The UTC label count L = T − (D − 10) (R3). -/
def utcLabel (t d : Nat) : Int := (t : Int) - ((d : Int) - 10)

/-- The TAI label count (R3). -/
def taiLabel (t : Nat) : Int := (t : Int) + 10

/-- The local label count of a zone with this offset in minutes (R3). -/
def localLabel (t d : Nat) (offset : Int) : Int := utcLabel t d + 60 * offset

/-- A label count is in calendar range (R4). -/
def inCalendar (label : Int) : Bool := decide (0 ≤ label) && decide (label < (Config.calendarLimit : Int))

/-! ## Dates -/

/-- First day of year of each month (Table 1-1). -/
def monthStarts (leapYear : Bool) : List Nat :=
  if leapYear then [0, 31, 60, 91, 121, 152, 182, 213, 244, 274, 305, 335]
  else [0, 31, 59, 90, 120, 151, 181, 212, 243, 273, 304, 334]

/-- The year-in-cycle and the day of year of a day number (R7). -/
def yearInCycle (n : Nat) : Nat × Nat :=
  let r := n % 1461
  if r < 366 then (0, r) else (1 + (r - 366) / 365, (r - 366) % 365)

/-- The year of a day number (R7). -/
def yearOf (n : Nat) : Nat := 1972 + 4 * (n / 1461) + (yearInCycle n).1

/-- The month of a day number: the last one whose first day of year is at or below the day of year (R7). -/
def monthOf (n : Nat) : Nat :=
  let c := yearInCycle n
  ((monthStarts (c.1 == 0)).filter (fun start => decide (start ≤ c.2))).length

/-- The day of month of a day number (R7). -/
def dayOfMonth (n : Nat) : Nat :=
  let c := yearInCycle n
  c.2 - (monthStarts (c.1 == 0)).getD (monthOf n - 1) 0 + 1

/-- A day number within the calendar is the first of a month (R7, R12). -/
def firstOfMonth (n : Nat) : Bool := decide (n < Config.calendarDays) && dayOfMonth n == 1

/-- The ISO weekday of a day number (R8). -/
def weekdayOf (n : Nat) : Nat := (n + 5) % 7 + 1

/-- The fixed fields of an out-of-range label (R9). -/
def outOfRangeFields : Calendar :=
  { year := 2099, month := 12, day := 31, hour := 23, minute := 59, second := 59, weekday := 4 }

/-- The conversion of a label count, with the inserted-second indication (R7, R8, R9). -/
def convertLabel (label : Int) (inserted : Bool) : CalendarAnswer :=
  if inCalendar label then
    let n := label.toNat / 86400
    let s := label.toNat % 86400
    { outOfRange := false
      fields :=
        { year := yearOf n, month := monthOf n, day := dayOfMonth n, hour := s / 3600, minute := s % 3600 / 60
          second := if inserted && s % 60 == 59 then 60 else s % 60
          weekday := weekdayOf n } }
  else { outOfRange := true, fields := outOfRangeFields }

/-- The day number of the first day of the month that follows the label's month; none for a label out of range (R17). -/
def nextMonthDay (label : Int) : Option Nat :=
  if inCalendar label then
    let n := label.toNat / 86400
    let m := monthOf n
    let year := if m == 12 then yearOf n + 1 else yearOf n
    let month := if m == 12 then 1 else m + 1
    let c := (year - 1972) / 4
    let k := (year - 1972) % 4
    some (1461 * c + (if k == 0 then 0 else 366 + 365 * (k - 1)) + (monthStarts (k == 0)).getD (month - 1) 0)
  else none

/-- A value of 0..99 in binary-coded decimal (R10). -/
def bcd (v : Nat) : Byte := BitVec.ofNat 8 (v / 10 * 16 + v % 10)

/-! ## Keys -/

/-- The order of targets: UTC, then zones 0 to 3 (R11); it is also the target's code (R183). -/
def Target.code : Target → Nat
  | .utc => 0
  | .zone z => z + 1

/-- The order of kinds (R11); it is also the kind's code (R183). -/
def ChangeKind.code : ChangeKind → Nat
  | .leapInsert => 1
  | .leapDelete => 2
  | .offsetSet => 3
  | .localShift => 4

/-- The key names a leap. -/
def Key.isLeap (k : Key) : Bool := k.kind == .leapInsert || k.kind == .leapDelete

/-- The key is keyed to a day of UTC, not to a minute. -/
def Key.isDayKeyed (k : Key) : Bool := k.kind != .localShift

/-- The number of a target's zone; 0 for UTC, which has none. -/
def Target.zoneIndex : Target → Nat
  | .utc => 0
  | .zone z => z

/-- A zone offset within its range and a multiple of 15 (R12, R121). -/
def zoneOffsetOk (v : Int) : Bool := decide (-720 ≤ v) && decide (v ≤ 840) && v % 15 == 0

/-- The key has the forms that R11 gives for its kind. -/
def Key.formed (k : Key) : Bool :=
  match k.kind, k.target, k.value with
  | .leapInsert, .utc, none | .leapDelete, .utc, none => decide (k.day < Config.calendarDays)
  | .offsetSet, .utc, some v => decide (k.day < Config.calendarDays) && decide (0 ≤ v)
  | .localShift, .zone z, some _ => decide (z < 4) && decide (k.day < Config.calendarMinutes)
  | _, _, _ => false

/-- The condition of R12 for the key's kind. Without a D, the two conditions on D are not tested (R53). -/
def Key.conditionHolds (k : Key) (d : Option Nat) : Bool :=
  match k.kind with
  | .leapInsert => firstOfMonth k.day && decide (1 ≤ k.day) && d.all (fun d => decide (d + 1 ≤ 255))
  | .leapDelete => firstOfMonth k.day && d.all (fun d => decide (11 ≤ d))
  | .offsetSet => decide (1 ≤ k.day) && k.value.any (fun v => decide (10 ≤ v) && decide (v ≤ 255))
  | .localShift => k.value.any zoneOffsetOk

/-- The key is valid (R12). -/
def Key.valid (k : Key) (d : Option Nat) : Bool := k.formed && k.conditionHolds d

/-- The epoch E of a key with a given D (R13). -/
def Key.epoch (k : Key) (d : Nat) : Int :=
  match k.kind with
  | .leapInsert | .offsetSet => (k.day : Int) * 86400 + ((d : Int) - 10)
  | .leapDelete => (k.day : Int) * 86400 + ((d : Int) - 11)
  | .localShift => (k.day : Int) * 60 + ((d : Int) - 10)

/-- The window end X of a key with a given D (R15). -/
def Key.windowEnd (k : Key) (d : Nat) : Int :=
  match k.kind with
  | .leapInsert => k.epoch d + 1
  | _ => k.epoch d

/-- Two keys share a target and a when: they are one key or rivals (R16, R107). -/
def Key.sameGroup (a b : Key) : Bool := a.target == b.target && a.day == b.day

/-- Two keys are rivals (R16). -/
def Key.rival (a b : Key) : Bool := a.sameGroup b && (a.kind != b.kind || a.value != b.value)

/-- What keys are ordered by, the epoch first (R11, R90): an absent value precedes any value. -/
def Key.rank (k : Key) (epoch : Int) : List Int :=
  [epoch, k.target.code, k.kind.code, if k.value.isSome then 1 else 0, k.value.getD 0]

/-- Lexicographic order on lists of one length. -/
def ranksBefore : List Int → List Int → Bool
  | a :: as, b :: bs => decide (a < b) || (a == b && ranksBefore as bs)
  | _, _ => false

end Sys2Proof.Machine
end

