-- ==== Sys2Proof/Machine/Ops.lean ====
section
/-! DEFINITION. The operations every block shares: bytes and the CRC (R183, R184), the nonvolatile array (R155), posting an
event (R177, R178), and lists of records taken one by one. -/

namespace Sys2Proof.Machine

/-! ## Bytes -/

/-- A count in `width` bytes, most significant first (R183). -/
def beBytes : Nat → Nat → List Byte
  | 0, _ => []
  | w + 1, n => BitVec.ofNat 8 (n / 256 ^ w) :: beBytes w n

/-- The count that bytes carry, most significant first (R183). -/
def beNat (bytes : List Byte) : Nat := bytes.foldl (fun n b => n * 256 + b.toNat) 0

/-- A signed count in two's complement of `width` bytes (R183). -/
def signedBytes (width : Nat) (v : Int) : List Byte := beBytes width (v % (256 ^ width : Nat)).toNat

/-- The signed count that a count of `width` bytes stands for (R183). -/
def signedOf (width n : Nat) : Int := if 2 * n < 256 ^ width then n else (n : Int) - (256 ^ width : Nat)

/-- Byte `i` of a request, a frame or a slot, as a count; 0 beyond the end. -/
def byteAt (bytes : List Byte) (i : Nat) : Nat := (bytes.getD i 0).toNat

/-- `n` bytes from byte `i`, as a count. -/
def fieldAt (bytes : List Byte) (i n : Nat) : Nat := beNat ((bytes.drop i).take n)

/-- A flag in a reply: 1 when set, 0 when clear (log 26). -/
def flagByte (b : Bool) : Byte := if b then 1 else 0

/-- A field that may be absent: 1 and the field, or 0 (R189). -/
def optionalField {α : Type} (f : α → List Byte) : Option α → List Byte
  | some a => 1 :: f a
  | none => [0]

/-- A code or a small count in one byte. -/
def small (n : Nat) : Byte := BitVec.ofNat 8 n

/-! ## The CRC -/

/-- One shift of the CRC register, polynomial 0x1021 (R184). -/
def crcShift (c : BitVec 16) : BitVec 16 := if c.msb then (c <<< 1) ^^^ 0x1021#16 else c <<< 1

/-- One byte, most significant bit first (R184). -/
def crcByte (c : BitVec 16) (b : Byte) : BitVec 16 :=
  crcShift (crcShift (crcShift (crcShift (crcShift (crcShift (crcShift (crcShift (c ^^^ (b.setWidth 16 <<< 8)))))))))

/-- The CRC-16 over bytes in their order of position (R184). -/
def crc16 (bytes : List Byte) : BitVec 16 := bytes.foldl crcByte 0xFFFF#16

/-- The CRC as it is placed, high byte first (R184). -/
def crcBytes (bytes : List Byte) : List Byte := beBytes 2 (crc16 bytes).toNat

/-! ## The array -/

/-- The byte an erased cell reads, and so what an unlisted address reads (R155). -/
def erasedByte : Byte := 0xFF#8

/-- The byte at an address of the array. -/
def Memory.read : Memory → Nat → Byte
  | [], _ => erasedByte
  | (b, v) :: rest, a => if b = a then v else Memory.read rest a

/-- The array with one byte written, in canonical form. -/
def Memory.write : Memory → Nat → Byte → Memory
  | [], a, v => if v = erasedByte then [] else [(a, v)]
  | (b, w) :: rest, a, v =>
    if a < b then (if v = erasedByte then (b, w) :: rest else (a, v) :: (b, w) :: rest)
    else if a = b then (if v = erasedByte then rest else (a, v) :: rest)
    else (b, w) :: Memory.write rest a v

/-- Every address is at or above `lo`, the addresses strictly rise, and no entry reads as erased. -/
def Memory.risingFrom : Nat → Memory → Bool
  | _, [] => true
  | lo, (a, v) :: rest => decide (lo ≤ a) && v != erasedByte && Memory.risingFrom (a + 1) rest

/-- The canonical form. -/
def Memory.wf (m : Memory) : Bool := Memory.risingFrom 0 m

/-- `n` bytes from an address. -/
def Memory.readBytes (m : Memory) (start n : Nat) : List Byte := (List.range n).map (fun i => m.read (start + i))

/-- Bytes written from an address on. -/
def Memory.writeBytes : Memory → Nat → List Byte → Memory
  | m, _, [] => m
  | m, start, b :: bytes => Memory.writeBytes (m.write start b) (start + 1) bytes

/-- Slot s occupies the 20 bytes from 20 × s (R188). -/
def Memory.slot (m : Memory) (s : Nat) : List Byte := m.readBytes (20 * s) 20

/-- Page p holds slots 16 × p to 16 × p + 15 (R155). -/
def Memory.page (m : Memory) (p : Nat) : List Byte := m.readBytes (320 * p) 320

/-! ## Events -/

/-- A posted record joins the back of the queue; a full queue loses its oldest record (R177, R178), and where that is the
record being read the completion of the reply removes nothing more (R180). -/
def ControlPort.post (r : EventRecord) (cp : ControlPort) : ControlPort :=
  if cp.queue.length < 32 then { cp with queue := cp.queue ++ [r] }
  else
    { cp with
      queue := cp.queue.drop (cp.queue.length - 31) ++ [r]
      overflow := min 255 (cp.overflow + 1)
      eventRead := if cp.eventRead = .head then .displaced else cp.eventRead }

/-- The T an event carries: the T of the most recent edge, or absent while UNSET (10, section 10.4). -/
def State.eventT (s : State) : Option Nat := if s.tb.timeState = .set then some s.tb.t else none

/-- Raises an event with a given T. -/
def State.raiseAt (t : Option Nat) (e : Event) (s : State) : State := { s with cp := s.cp.post { event := e, t := t } }

/-- Raises an event. -/
def State.raise (e : Event) (s : State) : State := s.raiseAt s.eventT e

/-- Raises events in order with a given T. -/
def State.raiseAllAt (t : Option Nat) (es : List Event) (s : State) : State := es.foldl (fun s e => s.raiseAt t e) s

/-- Raises events in order. -/
def State.raiseAll (es : List Event) (s : State) : State := s.raiseAllAt s.eventT es

/-! ## Lists of records -/

/-- Takes the records of a list one by one, in order, with their index, and gathers the events each raises. -/
def takeEach {α : Type} (f : Nat → α → α × List Event) : Nat → List α → List α × List Event
  | _, [] => ([], [])
  | i, a :: rest =>
    let r := f i a
    let more := takeEach f (i + 1) rest
    (r.1 :: more.1, r.2 ++ more.2)

/-- Replaces the element at an index, if there is one. -/
def replaceAt {α : Type} : Nat → (α → α) → List α → List α
  | _, _, [] => []
  | 0, f, a :: rest => f a :: rest
  | i + 1, f, a :: rest => a :: replaceAt i f rest

/-- Adds one to a count that stays at `top` once there. -/
def upTo (top n : Nat) : Nat := min top (n + 1)

/-- The station is commissioned: every state but DORMANT (R67). -/
def State.commissioned (s : State) : Bool := s.params.isSome

/-- The time state is SET and the scale status is not UNKNOWN: what keys and epochs are derived under (R41, R55, R94). -/
def State.scaled (s : State) : Bool := s.tb.timeState == .set && s.ss.status != .unknown && s.ss.d.isSome

/-- The D that Scale State holds, where a rule derives something from it; never used while D is absent (log 38). -/
def State.dNow (s : State) : Nat := s.ss.d.getD 10

end Sys2Proof.Machine
end

