-- ==== Sys2Proof/Machine/Operands.lean ====
section
/-! DEFINITION. Wire and record formats (11_wire_and_record_formats.md): how keys, frames, stamps, slots, events and replies
are packed in bytes, and how request payloads, frames and slots are read. -/

namespace Sys2Proof.Machine

/-! ## Codes (R183) -/

/-- Time state: UNSET, SET. -/
def TimeState.code : TimeState → Nat
  | .unset => 1
  | .set => 2

/-- Pulse state. -/
def PulseState.code : PulseState → Nat
  | .seeking => 1
  | .locked => 2
  | .bridging => 3
  | .flywheel => 4
  | .untimed => 5

/-- The pulse state of a code; none for 0, 6 and 7 (R186). -/
def PulseState.ofCode : Nat → Option PulseState
  | 1 => some .seeking
  | 2 => some .locked
  | 3 => some .bridging
  | 4 => some .flywheel
  | 5 => some .untimed
  | _ => none

/-- Scale status. -/
def ScaleStatus.code : ScaleStatus → Nat
  | .unknown => 1
  | .stored => 2
  | .confirmed => 3

/-- Participation. -/
def Participation.code : Participation → Nat
  | .dormant => 1
  | .listening => 2
  | .active => 3
  | .muted => 4

/-- Cause; also its rank (R71). -/
def Cause.code : Cause → Nat
  | .periodic => 1
  | .changed => 2
  | .joining => 3

/-- The cause of a code. -/
def Cause.ofCode : Nat → Option Cause
  | 1 => some .periodic
  | 2 => some .changed
  | 3 => some .joining
  | _ => none

/-- Candidate state. -/
def CandidateState.code : CandidateState → Nat
  | .proposed => 1
  | .accepted => 2
  | .armed => 3

/-- The candidate state of a code. -/
def CandidateState.ofCode : Nat → Option CandidateState
  | 1 => some .proposed
  | 2 => some .accepted
  | 3 => some .armed
  | _ => none

/-- Stance. -/
def Stance.code : Stance → Nat
  | .witness => 1
  | .dissent => 2
  | .abstain => 3

/-- The stance of a code. -/
def Stance.ofCode : Nat → Option Stance
  | 1 => some .witness
  | 2 => some .dissent
  | 3 => some .abstain
  | _ => none

/-- Armed-by. -/
def ArmedBy.code : ArmedBy → Nat
  | .tally => 1
  | .late => 2
  | .follow => 3

/-- Decision: AFFIRM 1, DENY 2 (Table 11-5). -/
def Decision.code : Decision → Nat
  | .affirm => 1
  | .deny => 2

/-- The decision of a code. -/
def Decision.ofCode : Nat → Option Decision
  | 1 => some .affirm
  | 2 => some .deny
  | _ => none

/-- Leap indicator, from 0. -/
def LeapIndicator.code : LeapIndicator → Nat
  | .noLeap => 0
  | .insert => 1
  | .delete => 2

/-- The leap indicator of a code. -/
def LeapIndicator.ofCode : Nat → Option LeapIndicator
  | 0 => some .noLeap
  | 1 => some .insert
  | 2 => some .delete
  | _ => none

/-- Shift indicator, from 0. -/
def ShiftIndicator.code : ShiftIndicator → Nat
  | .noShift => 0
  | .forward => 1
  | .backward => 2

/-- Source status, in the order of Table 3-1; R36 lists DISCORDANT before STALE (log 27). -/
def SourceStatus.code : SourceStatus → Nat
  | .empty => 1
  | .settling => 2
  | .fresh => 3
  | .stale => 4
  | .discordant => 5

/-- Standing, in the order of Table 3-1. -/
def Standing.code : Standing → Nat
  | .current => 1
  | .lagging => 2
  | .early => 3

/-- Peer state, in the order of Table 5-1. -/
def PeerState.code : PeerState → Nat
  | .live => 1
  | .silent => 2

/-- Lane kind. -/
def LaneKind.code : LaneKind → Nat
  | .tai => 1
  | .utc => 2
  | .smear => 3
  | .localTime => 4

/-- The lane kind of a code. -/
def LaneKind.ofCode : Nat → Option LaneKind
  | 1 => some .tai
  | 2 => some .utc
  | 3 => some .smear
  | 4 => some .localTime
  | _ => none

/-- Stamp kind. -/
def StampKind.code : StampKind → Nat
  | .unscaled => 1
  | .outOfRange => 2
  | .stepped => 3
  | .leap => 4
  | .smearing => 5
  | .normal => 6

/-- Store state, in the order of 09's table. -/
def StoreState.code : StoreState → Nat
  | .scanning => 1
  | .idle => 2
  | .programming => 3
  | .erasing => 4
  | .inhibited => 5
  | .failed => 6

/-- Slot class, in the order of R157. -/
def SlotClass.code : SlotClass → Nat
  | .empty => 1
  | .valid => 2
  | .torn => 3
  | .corrupt => 4

/-- History kind. -/
def HistoryKind.code : HistoryKind → Nat
  | .leapInsert => 1
  | .leapDelete => 2
  | .offsetSet => 3
  | .localShift => 4
  | .acquired => 5
  | .yielded => 6

/-- Reset cause. -/
def ResetCause.code : ResetCause → Nat
  | .power => 1
  | .pin => 2
  | .command => 3

/-- Cause of ADDRESS_CLASH. -/
def ClashCause.code : ClashCause → Nat
  | .retryLimit => 1
  | .ownAddressHeard => 2

/-- Origin, in the order of Table 6-2. -/
def Origin.code : Origin → Nat
  | .source => 1
  | .operator => 2
  | .peer => 3
  | .follow => 4

/-- Reason of a demotion, in the order of Table 6-2. -/
def DemoteReason.code : DemoteReason → Nat
  | .belowQuorum => 1
  | .notAhead => 2
  | .denied => 3

/-- Reason of a withdrawal, in the order of Table 6-2. -/
def WithdrawReason.code : WithdrawReason → Nat
  | .noOrigin => 1
  | .invalid => 2

/-- Reason of a conflict, in the order of Table 6-2; R107 names RIVAL_ARMED last (log 27). -/
def ConflictReason.code : ConflictReason → Nat
  | .rivalArmed => 1
  | .outvoted => 2
  | .tied => 3

/-- Reason of a bar, in the order of R97. -/
def BarReason.code : BarReason → Nat
  | .conflicted => 1
  | .applied => 2

/-- Cause of STORE_GAP. -/
def GapCause.code : GapCause → Nat
  | .queueFull => 1
  | .failed => 2
  | .inhibited => 3

/-- Status, from 0. -/
def Status.code : Status → Nat
  | .ok => 0
  | .busy => 1
  | .refused => 2
  | .range => 3
  | .late => 4
  | .versionMismatch => 5
  | .malformed => 6

/-! ## Keys (R183) -/

/-- The kind-and-target byte. -/
def Key.kindTarget (k : Key) : Byte := small (k.kind.code * 16 + k.target.code)

/-- The value byte: 0 for a leap, D for an OFFSET_SET, signed units of 15 minutes for a LOCAL_SHIFT. -/
def Key.valueByte (k : Key) : Byte :=
  match k.kind, k.value with
  | .offsetSet, some v => small v.toNat
  | .localShift, some v => small ((v / 15) % 256).toNat
  | _, _ => 0

/-- A key in 6 bytes. -/
def Key.bytes (k : Key) : List Byte := k.kindTarget :: beBytes 4 k.day ++ [k.valueByte]

/-- The kind of the upper half of a kind-and-target byte. -/
def ChangeKind.ofCode : Nat → Option ChangeKind
  | 1 => some .leapInsert
  | 2 => some .leapDelete
  | 3 => some .offsetSet
  | 4 => some .localShift
  | _ => none

/-- The target of the lower half of a kind-and-target byte. -/
def Target.ofCode : Nat → Option Target
  | 0 => some .utc
  | 1 => some (.zone 0)
  | 2 => some (.zone 1)
  | 3 => some (.zone 2)
  | 4 => some (.zone 3)
  | _ => none

/-- The value of a key's value byte, for its kind; none where a leap carries one (R80, R183). -/
def valueOfByte (kind : ChangeKind) (b : Nat) : Option (Option Int) :=
  match kind with
  | .leapInsert | .leapDelete => if b = 0 then some none else none
  | .offsetSet => some (some b)
  | .localShift => some (some (15 * signedOf 1 b))

/-- The value of an operator item's two value bytes: signed minutes, or D, or 0 for none (Table 11-5). Any other value
makes a leap a leap with a value, which fails validity. -/
def valueOfItem (kind : ChangeKind) (n : Nat) : Option Int :=
  match kind with
  | .leapInsert | .leapDelete => if n = 0 then none else some (signedOf 2 n)
  | .offsetSet | .localShift => some (signedOf 2 n)

/-- A key read from its kind-and-target byte, its when and its value byte; none unless it has the forms of R11 (R80). -/
def readKey (kindTarget day value : Nat) : Option Key := do
  let kind ← ChangeKind.ofCode (kindTarget / 16)
  let target ← Target.ofCode (kindTarget % 16)
  let v ← valueOfByte kind value
  let k : Key := { kind := kind, target := target, day := day, value := v }
  if k.formed then some k else none

/-! ## The VIEW frame (R63, R185, R186) -/

/-- One entry of a frame: key, state, stance. -/
def ViewEntry.bytes (e : ViewEntry) : List Byte := e.key.bytes ++ [small e.state.code, small e.stance.code]

/-- Bytes 2 to 12 + 8n: header and payload. -/
def ViewFrame.covered (f : ViewFrame) : List Byte :=
  [small (0xA0 + f.cause.code), small f.sender, small (2 + 8 * f.entries.length)] ++ beBytes 2 f.version
    ++ beBytes 4 f.t
    ++ [small (f.entries.length * 16 + (if f.status = .confirmed then 8 else 0) + f.pulseState.code), small f.d]
    ++ f.entries.flatMap ViewEntry.bytes

/-- The whole frame: sync, header, payload, CRC. -/
def ViewFrame.bytes (f : ViewFrame) : List Byte := [0xA5#8, 0xC3#8] ++ f.covered ++ crcBytes f.covered

/-- A received frame that has passed the checks, its payload as received. -/
structure ReceivedFrame where
  cause : Cause
  sender : Nat
  version : Nat
  t : Nat
  confirmed : Bool
  pulseCode : Nat
  d : Nat
  /-- The entries, 8 bytes each. -/
  entries : List (List Byte)
  deriving DecidableEq, Repr

/-- The entries of a payload, 8 bytes each. -/
def entryBytes : Nat → List Byte → List (List Byte)
  | 0, _ => []
  | n + 1, bytes => bytes.take 8 :: entryBytes n (bytes.drop 8)

/-- The checks of R65 on the whole bytes between frame start and frame end and the odd bits beyond them. A frame of
payload length l has 13 + l bytes (R63, R185; log 28). -/
def receiveFrame (bytes : List Byte) (oddBits : Nat) : Option ReceivedFrame :=
  let n := byteAt bytes 11 / 16
  let covered := (bytes.drop 2).take (bytes.length - 4)
  if oddBits = 0 ∧ 15 ≤ bytes.length ∧ bytes.take 2 = [0xA5#8, 0xC3#8] ∧ bytes.length = 13 + byteAt bytes 4
      ∧ crcBytes covered = bytes.drop (bytes.length - 2) ∧ byteAt bytes 2 / 16 = 0xA ∧ byteAt bytes 3 ≤ 31 ∧ n ≤ 8
      ∧ byteAt bytes 4 = 2 + 8 * n then
    (Cause.ofCode (byteAt bytes 2 % 16)).map fun cause =>
      { cause := cause, sender := byteAt bytes 3, version := fieldAt bytes 5 2, t := fieldAt bytes 7 4
        confirmed := byteAt bytes 11 / 8 % 2 == 1, pulseCode := byteAt bytes 11 % 8, d := byteAt bytes 12
        entries := entryBytes n (bytes.drop 13) }
  else none

/-- The scale status of a received view; none where D and the confirmed bit make none of those of Table 5-1 or a D outside
10..255 (R80, R186). -/
def ReceivedFrame.status (f : ReceivedFrame) : Option ScaleStatus :=
  if f.d = 0 then (if f.confirmed then none else some .unknown)
  else if f.d < 10 then none
  else some (if f.confirmed then .confirmed else .stored)

/-- One candidate entry as it is read; none where its kind, state, stance, forms or when drop it (R80). -/
def readEntry (bytes : List Byte) : Option ViewEntry := do
  let key ← readKey (byteAt bytes 0) (fieldAt bytes 1 4) (byteAt bytes 5)
  let state ← CandidateState.ofCode (byteAt bytes 6)
  let stance ← Stance.ofCode (byteAt bytes 7)
  some { key := key, state := state, stance := stance }

/-! ## The stamp record (R187) -/

/-- The calendar fields of a stamp, packed (R10); zeros where the stamp kind presents zeros (R143). -/
def calendarBytes : Option Calendar → List Byte
  | none => List.replicate 8 0
  | some c =>
    [bcd (c.year / 100), bcd (c.year % 100), bcd c.month, bcd c.day, bcd c.hour, bcd c.minute, bcd c.second, bcd c.weekday]

/-- Bytes 0 to 19 of a stamp record. -/
def Stamp.covered (p : Stamp) : List Byte :=
  [small (p.lane * 16 + p.laneKind.code), small p.kind.code] ++ beBytes 4 p.count ++ beBytes 4 p.correction
    ++ calendarBytes p.calendar ++ [small p.d, small (p.leap.code * 16 + p.shift.code)]

/-- A stamp record of 22 bytes. -/
def Stamp.bytes (p : Stamp) : List Byte := p.covered ++ crcBytes p.covered

/-! ## The store slot (R188) -/

/-- The value byte of a record: D, units of 15 minutes, or 0 (R156). -/
def HistoryRecord.valueByte (r : HistoryRecord) : Byte :=
  match r.kind with
  | .leapInsert | .leapDelete => 0
  | .localShift => small ((r.value / 15) % 256).toNat
  | .offsetSet | .acquired | .yielded => small r.value.toNat

/-- Bytes 0 to 16 of a slot: the record with its sequence and format 1. -/
def HistoryRecord.covered (r : HistoryRecord) (sequence : Nat) : List Byte :=
  beBytes 4 sequence ++ [1, small r.kind.code, small r.target.code] ++ beBytes 4 r.epochT
    ++ [r.valueByte, small r.dAfter] ++ r.zones.map (fun z => small ((z / 15) % 256).toNat)

/-- The complete marker of a written slot (R188). -/
def completeMarker : Byte := 0x3C#8

/-- The 20 bytes that a program means to write (R161). -/
def HistoryRecord.slotBytes (r : HistoryRecord) (sequence : Nat) : List Byte :=
  r.covered sequence ++ crcBytes (r.covered sequence) ++ [completeMarker]

/-- The class of a slot, from its bytes as read (R157). -/
def slotClass (bytes : List Byte) : SlotClass :=
  if bytes.all (fun b => b == erasedByte) then .empty
  else if bytes.getD 19 0 ≠ completeMarker then .torn
  else if crcBytes (bytes.take 17) = (bytes.drop 17).take 2 then .valid
  else .corrupt

/-- The sequence of a slot's bytes. -/
def slotSequence (bytes : List Byte) : Nat := fieldAt bytes 0 4

/-- The zone offsets of a slot's bytes, in minutes (R156). -/
def slotZones (bytes : List Byte) : List Int :=
  [15 * signedOf 1 (byteAt bytes 13), 15 * signedOf 1 (byteAt bytes 14), 15 * signedOf 1 (byteAt bytes 15),
    15 * signedOf 1 (byteAt bytes 16)]

/-! ## Event records (R183, R189) -/

/-- The code of an event's kind, in the order of Table 10-3. -/
def Event.code : Event → Nat
  | .reset _ => 1
  | .commissioned _ _ => 2
  | .joined _ _ => 3
  | .addressClash _ _ => 4
  | .busError _ => 5
  | .timeSet => 6
  | .timeStepped _ => 7
  | .pulseLost => 8
  | .relocked _ => 9
  | .rephased _ => 10
  | .runtPulse _ => 11
  | .refclkLost => 12
  | .refclkRestored => 13
  | .sourceFresh _ _ => 14
  | .sourceStale _ _ => 15
  | .sourceDiscordant _ _ _ => 16
  | .sourceReportInvalid _ _ => 17
  | .peerJoined _ _ => 18
  | .peerSilent _ _ => 19
  | .peerDiscordant _ _ => 20
  | .peerEntryInvalid _ _ _ _ => 21
  | .candidateNew _ _ => 22
  | .candidateAccepted _ _ _ => 23
  | .candidateDemoted _ _ => 24
  | .candidateWithdrawn _ _ => 25
  | .candidateArmed _ _ => 26
  | .candidateExpired _ => 27
  | .candidateConflict _ _ => 28
  | .candidateDropped _ => 29
  | .tableFull _ => 30
  | .changeApplied _ _ _ _ => 31
  | .scaleConfirmed _ _ _ => 32
  | .scaleYielded _ _ _ _ => 33
  | .storeGap _ _ _ _ => 34
  | .storeFault _ => 35

/-- The fields of an event's subject, packed from its first byte (R189); the causes of STORE_FAULT in the order of Table 9-1
(log 27). -/
def Event.subjectFields : Event → List Byte
  | .reset cause => [small cause.code]
  | .commissioned a lanes => [small a, small lanes]
  | .joined a v | .peerJoined a v => small a :: beBytes 2 v
  | .addressClash a cause => [small a, small cause.code]
  | .busError n | .runtPulse n => beBytes 2 n
  | .timeSet | .pulseLost | .refclkLost | .refclkRestored => []
  | .timeStepped delta => signedBytes 5 delta
  | .relocked v | .rephased v => signedBytes 4 v
  | .sourceFresh i d => [small i, small d]
  | .sourceStale i age | .peerSilent i age => small i :: beBytes 2 age
  | .sourceDiscordant i d own => [small i, small d, small own]
  | .sourceReportInvalid i k => small i :: k.kindTarget :: beBytes 4 k.day
  | .peerDiscordant a v => small a :: signedBytes 4 v
  | .peerEntryInvalid a pos kindTarget day => [small a, small pos, small kindTarget] ++ beBytes 4 day
  | .candidateNew k o => k.bytes ++ [small o.code]
  | .candidateAccepted k pro con => k.bytes ++ [small pro, small con]
  | .candidateDemoted k r => k.bytes ++ [small r.code]
  | .candidateWithdrawn k r => k.bytes ++ [small r.code]
  | .candidateArmed k b => k.bytes ++ [small b.code]
  | .candidateConflict k r => k.bytes ++ [small r.code]
  | .candidateExpired k | .candidateDropped k | .tableFull k => k.bytes
  | .changeApplied k after void stepped =>
    k.bytes ++ [if k.kind = .localShift then small ((after / 15) % 256).toNat else small after.toNat,
      small ((if void then 2 else 1) * 16 + (if stepped then 1 else 0))]
  | .scaleConfirmed v n before => [small v, small n, small before.code]
  | .scaleYielded dBefore dAfter nAfter nBefore => [small dBefore, small dAfter, small nAfter, small nBefore]
  | .storeGap cause lost kind t => [small cause.code, small lost, small kind.code] ++ beBytes 4 t
  | .storeFault (.verify slot sequence) => [1, small slot] ++ beBytes 4 sequence
  | .storeFault (.erase page) => [2, small page]
  | .storeFault (.sequence slot) => [3, small slot]

/-- The subject in its 8 bytes, filled with bytes of zero (R189). -/
def Event.subject (e : Event) : List Byte := (e.subjectFields ++ List.replicate 8 0).take 8

/-- The 13-byte event record (R189). -/
def EventRecord.bytes (r : EventRecord) : List Byte :=
  small r.event.code :: beBytes 4 (r.t.getD 0xFFFFFFFF) ++ r.event.subject

/-! ## Replies (R189) -/

/-- The bytes a response drives on HDO: turnaround, status, length, response (Table 11-4). -/
def Reply.bytes (r : Reply) : List Byte := [0xFF#8, small r.status.code] ++ beBytes 2 r.body.length ++ r.body

/-- The code of a command, in the order of Table 10-1 (R183). -/
def commandBytes (code : Nat) (payload : List Byte) : List Byte := small code :: small payload.length :: payload

/-- An observation in a reply. -/
def Observation.bytes (o : Observation) : List Byte :=
  [small o.d, small o.leap.code] ++ optionalField (beBytes 2) o.day
    ++ optionalField (fun c : LocalChange => [small c.zone, small ((c.offset / 15) % 256).toNat] ++ beBytes 4 c.minute) o.change

/-- A list in a reply: its count and its items (log 26). -/
def listField {α : Type} (f : α → List Byte) (items : List α) : List Byte := small items.length :: items.flatMap f

/-- The operator entry in a reply: its two positions in order, in each an item, its key and its decision, or none (R55, R56;
logs 26, 47). -/
def operatorBytes (items : List OperatorItem) : List Byte :=
  [1, 2].flatMap fun p =>
    optionalField (fun i : OperatorItem => i.key.bytes ++ [small i.decision.code]) (items.find? (fun i => i.position == p))

/-! ## Request payloads (Table 11-5) -/

/-- The fields of OBSERVE as received. -/
structure ObserveRequest where
  source : Nat
  d : Nat
  leapCode : Nat
  day : Option Nat
  change : Option LocalChange
  deriving DecidableEq, Repr

/-- OBSERVE's payload: source, D, leap indicator, leap day, local zone, new offset, minute. -/
def readObserve (p : List Byte) : ObserveRequest :=
  { source := byteAt p 0, d := byteAt p 1, leapCode := byteAt p 2
    day := if fieldAt p 3 2 = 0xFFFF then none else some (fieldAt p 3 2)
    change :=
      if byteAt p 5 = 0xFF then none
      else some { zone := byteAt p 5, offset := signedOf 2 (fieldAt p 6 2), minute := fieldAt p 8 4 } }

/-- An item of SET_OPERATOR_ENTRY as received: a key, none where its kind or target has no meaning, and a decision. -/
structure OperatorRequest where
  key : Option Key
  decision : Option Decision
  deriving DecidableEq, Repr

/-- One item of 8 bytes: kind-and-target, when, value, decision. -/
def readOperatorItem (b : List Byte) : OperatorRequest :=
  { key := do
      let kind ← ChangeKind.ofCode (byteAt b 0 / 16)
      let target ← Target.ofCode (byteAt b 0 % 16)
      some { kind := kind, target := target, day := fieldAt b 1 4, value := valueOfItem kind (fieldAt b 5 2) }
    decision := Decision.ofCode (byteAt b 7) }

/-- The items of SET_OPERATOR_ENTRY, from payload byte 3. -/
def readOperatorItems (p : List Byte) : List OperatorRequest :=
  (entryBytes (byteAt p 0) (p.drop 3)).map readOperatorItem

/-- A lane profile as received. -/
structure LaneRequest where
  kindCode : Nat
  zone : Nat
  lead : Nat
  window : Nat
  deriving DecidableEq, Repr

/-- The commission record as received. -/
structure CommissionRequest where
  params : Params
  laneCount : Nat
  lanes : List LaneRequest
  /-- The initial zone offsets, in units of 15 minutes. -/
  zoneUnits : List Int
  deriving DecidableEq, Repr

/-- Lane i of the commission record, from payload byte 17 + 7i (R189). -/
def readLane (p : List Byte) (i : Nat) : LaneRequest :=
  { kindCode := byteAt p (17 + 7 * i), zone := byteAt p (18 + 7 * i), lead := byteAt p (19 + 7 * i)
    window := fieldAt p (20 + 7 * i) 4 }

/-- COMMISSION's payload (Table 11-5). -/
def readCommission (p : List Byte) : CommissionRequest :=
  { params :=
      { address := byteAt p 0, qmin := byteAt p 1, hd := byteAt p 2, ha := fieldAt p 3 4, p := byteAt p 7, pc := byteAt p 8
        peerTimeout := byteAt p 9, sourceTimeout := byteAt p 10, nd := byteAt p 11, yieldDelay := fieldAt p 12 2
        tau := fieldAt p 14 2 }
    laneCount := byteAt p 16
    lanes := (List.range 8).map (readLane p)
    zoneUnits := (List.range 4).map (fun z => signedOf 1 (byteAt p (73 + z))) }

end Sys2Proof.Machine
end

