-- ==== Sys2Proof/Machine/Flags.lean ====
section
/-! DEFINITION. What the rules read off the state at a glance: good standing and offers, the classes of peers, readiness to
transmit, and the part's output pins. -/

namespace Sys2Proof.Machine

/-! ## Source Intake's offers -/

/-- A source in good standing: FRESH, CURRENT, its report-unusable mark clear (R36). -/
def SourceRecord.goodStanding (r : SourceRecord) : Bool :=
  r.status == .fresh && r.standing == .current && !r.unusable

/-- The keys a source offers: its derived keys in good standing, none otherwise (R44). -/
def SourceRecord.offered (r : SourceRecord) : List Key := if r.goodStanding then r.keys else []

/-- The offer of sources to the Candidate Table: the sources in good standing, by index, with their keys (R44). -/
def sourceOffer : Nat → List SourceRecord → List (Nat × List Key)
  | _, [] => []
  | i, r :: rest => if r.goodStanding then (i, r.keys) :: sourceOffer (i + 1) rest else sourceOffer (i + 1) rest

/-- The offer to the Candidate Table. -/
def SourceIntake.offer (si : SourceIntake) : List (Nat × List Key) := sourceOffer 0 si.sources

/-- The settled D a source offers Scale State: FRESH in any standing, or DISCORDANT (R45). -/
def SourceRecord.offeredD (r : SourceRecord) : Option Nat :=
  if r.status == .fresh || r.status == .discordant then r.settled.map (·.d) else none

/-- The offer to Scale State, source by source (R45). -/
def SourceIntake.offeredDs (si : SourceIntake) : List (Option Nat) := si.sources.map SourceRecord.offeredD

/-! ## Classes of peers (R84) -/

/-- A listing peer. -/
def PeerEntry.listing (e : PeerEntry) : Bool := e.state == .live && !e.timeSplit

/-- A voting peer. -/
def PeerEntry.voting (e : PeerEntry) : Bool := e.listing && !e.scaleSplit

/-- A scale peer. -/
def PeerEntry.scalePeer (e : PeerEntry) : Bool :=
  e.listing && (match e.view with | some v => v.status == .confirmed | none => false)

/-- The candidate entries stored for a peer. -/
def PeerEntry.entries (e : PeerEntry) : List ViewEntry := (e.view.map (·.entries)).getD []

/-- What a peer offers the Candidate Table: its standing and, for a listing peer, its entries and scale status (R85). -/
def PeerEntry.offer (e : PeerEntry) : Option (Bool × List ViewEntry × Option ScaleStatus) :=
  if e.listing then some (e.voting, e.entries, e.view.map (·.status)) else none

/-- The scale peers with their D (R85). -/
def PeerTable.scaleOffer (pt : PeerTable) : List (Nat × Nat) :=
  (pt.entries.filter PeerEntry.scalePeer).map (fun e => (e.address, (e.view.map (·.d)).getD 0))

/-! ## The Candidate Table as others read it -/

/-- The table holds an ARMED record (R72). -/
def CandidateTable.holdsArmed (ct : CandidateTable) : Bool := ct.records.any (fun r => r.state == .armed)

/-- The leap records that are ACCEPTED or ARMED, with their states (R116). -/
def CandidateTable.committedLeaps (ct : CandidateTable) : List (Key × CandidateState) :=
  (ct.records.filter (fun r => r.key.isLeap && r.state != .proposed)).map (fun r => (r.key, r.state))

/-! ## The Scale Bus Interface -/

/-- The pending request is eligible: a CHANGED request only while the CHANGED-sent flag is clear (R59, R73). -/
def ScaleBus.eligible (b : ScaleBus) : Bool :=
  match b.request with
  | none => false
  | some .changed => !b.changedSent
  | some _ => true

/-- Ready to transmit (R59). -/
def ScaleBus.ready (b : ScaleBus) : Bool := b.participation == .active && b.eligible && !b.courtesyHold

/-- The courtesy span runs: the hold is set and the bus is quiet (R60). -/
def ScaleBus.courtesySpan (b : ScaleBus) : Bool := b.courtesyHold && b.pair == .quiet

/-- The stagger of an address, in bit times (R59). -/
def stagger (address : Nat) : Nat := 4 * address

/-- The further quiet of the courtesy span of an address, in bit times (R60). -/
def courtesyQuiet (address : Nat) : Nat := 4 * address + 256

/-- The station drives the pair: only while it transmits a frame of its own (R57). -/
def State.drivesPair (s : State) : Bool := s.sbi.buffer.isSome && !s.held

/-! ## The line code of the pair (R57, R58) -/

/-- The bits of a byte on the pair, least significant first (R57). -/
def busBits (b : Byte) : List Bool := (List.range 8).map (fun i => b.getLsbD i)

/-- A bit in its two halves: a 0 is dominant and then recessive, a 1 the other way round (R57). -/
def halfBits (bit : Bool) : List Level := if bit then [.recessive, .dominant] else [.dominant, .recessive]

/-- What a station drives to send bytes, half-bit by half-bit (R57). -/
def onPair (bytes : List Byte) : List Level := bytes.flatMap (fun b => (busBits b).flatMap halfBits)

/-- Where two levels are driven at once the dominant one prevails (R58). -/
def prevailing : Level → Level → Level
  | .dominant, _ => .dominant
  | .recessive, other => other

/-- What a station reads back of what it drives, against what the others drive, which is recessive beyond their list (R58). -/
def readBack : List Level → List Level → List Level
  | [], _ => []
  | own :: rest, [] => own :: readBack rest []
  | own :: rest, other :: others => prevailing own other :: readBack rest others

/-- The station reads back every half-bit as it sent it (R58). -/
def ViewFrame.readsBack (f : ViewFrame) (others : List Level) : Bool := readBack (onPair f.bytes) others == onPair f.bytes

/-! ## Pins -/

/-- HINT_N: low while the queue holds a record, high while it is empty and while a reset holds (R179). True is high. -/
def State.hintN (s : State) : Bool := s.held || s.cp.queue.isEmpty

/-- HDO is driven: only in the RESPONSE phase (R170). -/
def State.hdoDriven (s : State) : Bool := s.cp.phase == .response && !s.held

/-- Byte `i` driven on HDO in the RESPONSE phase: the reply's bytes, then 0xFF (R170). -/
def State.hdoByte (s : State) (i : Nat) : Byte := ((s.cp.response.map Reply.bytes).getD []).getD i 0xFF#8

/-- The bits of a byte on the control port and on the stamp stream, most significant first (R183). -/
def bitsOf (b : Byte) : List Bool := (List.range 8).map (fun i => b.getMsbD i)

/-- Bit `i` driven on HDO in the RESPONSE phase: the bytes in turn, each most significant bit first (R170, R183). -/
def State.hdoBit (s : State) (i : Nat) : Bool := (bitsOf (s.hdoByte (i / 8))).getD (i % 8) true

/-- One stamp record on (STAMP_FS, STAMP_DAT): 176 periods with the frame line high, then one with it low (R152). -/
def recordOnStream (bytes : List Byte) : List (Bool × Bool) :=
  (bytes.flatMap bitsOf).map (fun d => (true, d)) ++ [(false, false)]

/-- The stamps a second's emission sends, lane 0 first (R152). -/
def LaneStamps.emission (ls : LaneStamps) : List Stamp := ((ls.latest.take ls.laneCount).filterMap id).map (·.stamp)

/-- What (STAMP_FS, STAMP_DAT) show, clock period by clock period, while the stamps of a second are sent (R152). -/
def LaneStamps.streamPins (ls : LaneStamps) : List (Bool × Bool) := ls.emission.flatMap (fun p => recordOnStream p.bytes)

/-- (STAMP_FS, STAMP_DAT) in clock period `i` since the second's sending began: the stamps' bits while the stream is SENDING and
no reset holds, and both low at every other time (R152, R154). -/
def State.stampPins (s : State) (i : Nat) : Bool × Bool :=
  if s.ls.stream = .sending ∧ s.held = false then s.ls.streamPins.getD i (false, false) else (false, false)

end Sys2Proof.Machine
end

