-- ==== Sys2Proof/Machine/Transaction.lean ====
section
/-! DEFINITION. The control transaction (10_control_port_commissioning_and_events.md, sections 10.1 and 10.2): its begin and
end, the taking of a command and the forming of its reply. -/

namespace Sys2Proof.Machine

/-- The select code (R170). -/
def selectCode : Byte := 0x5C#8

/-- Forms the reply and enters the RESPONSE phase (R170). -/
def State.respond (status : Status) (body : List Byte) (s : State) : State :=
  { s with cp := { s.cp with phase := .response, response := some { status := status, body := body } } }

/-- Refuses with RANGE and the field index (R172). -/
def State.outOfRange (index : Nat) (s : State) : State := s.respond .range [small index]

/-- Refuses with REFUSED and the participation state (R172). -/
def State.refuse (s : State) : State := s.respond .refused [small s.sbi.participation.code]

/-- Takes a command whose request is complete: only in the REQUEST phase, and no reset holds (R170, R171; log 31). The
request buffer then holds the request's bytes, and the command acts. -/
def State.takeCommand (code : Nat) (payload : List Byte) (act : State → State) (s : State) : State :=
  if s.held || s.cp.phase != .request then s
  else act { s with cp := { s.cp with request := s.cp.request ++ commandBytes code payload } }

/-- TRANSACTION_BEGIN: HCS_N falls (R170). While a reset holds it begins nothing (R171). A falling HCS_N always begins a new
transaction. -/
def State.beginTransaction (select : Byte) (s : State) : State :=
  if s.held then s
  else
    { s with
      cp :=
        { s.cp with
          phase := if select = selectCode then .request else .ignoring
          request := [select], response := none, eventRead := .noRecord } }

/-- The end of a transaction in whatever phase it stands: its bytes and its reply are discarded (R170, R171). -/
def ControlPort.endTransaction (cp : ControlPort) : ControlPort :=
  { cp with phase := .idle, request := [], response := none, eventRead := .noRecord }

/-- The meaning of TRANSACTION_BEGIN (R170). -/
def execTransactionBegin (select : Byte) (s : State) : Host.Outcome State Fault Refusal :=
  .next (s.beginTransaction select)

end Sys2Proof.Machine
end

