-- ==== Sys2Proof/Machine/Peers.lean ====
section
/-! DEFINITION. The Peer Table (05_the_peer_table.md): taking a frame, the edge, the scale notice, READ_PEERS. -/

namespace Sys2Proof.Machine

/-! ## Entries -/

/-- The entry of an address (R76). -/
def PeerTable.find (pt : PeerTable) (address : Nat) : Option PeerEntry := pt.entries.find? (fun e => e.address == address)

/-- An entry put in its place in address order, over the former entry of its address (R76). -/
def putEntry (e : PeerEntry) : List PeerEntry → List PeerEntry
  | [] => [e]
  | f :: rest =>
    if e.address < f.address then e :: f :: rest
    else if e.address = f.address then e :: rest
    else f :: putEntry e rest

/-- A new entry, before its first frame is taken (R77). -/
def PeerEntry.fresh (address : Nat) : PeerEntry :=
  { address := address, state := .live, age := 0, view := none, tDifference := none, timeSplit := false
    scaleSplit := false }

/-- Raises PEER_ENTRY_INVALID through the entry-invalid flag (R80, R95). -/
def State.reportEntry (address position kindTarget day : Nat) (s : State) : State :=
  if s.pt.entryInvalid then s
  else
    ({ s with pt := { s.pt with entryInvalid := true } } : State).raise
      (.peerEntryInvalid address position kindTarget day)

/-! ## Reading a view (R79, R80) -/

/-- The candidate entries of a view as they are read, from position `n` on: those stored, and those dropped with their
position. `seen` holds the keys of the earlier entries of the frame (log 17). -/
def readEntries : Nat → List Key → List (List Byte) → List ViewEntry × List (Nat × List Byte)
  | _, _, [] => ([], [])
  | n, seen, b :: rest =>
    let key := readKey (byteAt b 0) (fieldAt b 1 4) (byteAt b 5)
    let more := readEntries (n + 1) (seen ++ key.toList) rest
    match readEntry b with
    | some e => if seen.contains e.key then (more.1, (n, b) :: more.2) else (e :: more.1, more.2)
    | none => (more.1, (n, b) :: more.2)

/-- The view of a frame with the entries dropped; none where the view as a whole is unreadable (R80, R186). A sender's time
state is SET. -/
def ReceivedFrame.view (f : ReceivedFrame) : Option (PeerView × List (Nat × List Byte)) :=
  match f.status, PulseState.ofCode f.pulseCode with
  | some status, some pulse =>
    let r := readEntries 1 [] f.entries
    some
      ({ version := f.version, status := status, d := f.d, timeState := .set, pulseState := pulse, entries := r.1 }, r.2)
  | _, _ => none

/-- The frame replaces the view of the entry (R79). -/
def PeerEntry.replaces (e : PeerEntry) (f : ReceivedFrame) : Bool :=
  f.cause == .joining || e.view.map (·.version) != some f.version

/-! ## Splits (R81 to R83) -/

/-- Two counts of seconds disagree (R81). -/
def splitBy (difference : Int) : Bool := decide (difference < -1) || decide (1 < difference)

/-- The T difference of an entry whose sender's T is `t`: absent unless both time states are SET (R81). -/
def State.differenceTo (s : State) (t : Nat) (e : PeerEntry) : Option Int :=
  if s.tb.timeState = .set ∧ (e.view.map (·.timeState)) = some .set then some ((t : Int) - s.tb.t) else none

/-- A difference held to the span of four signed bytes (R81). -/
def heldDifference (v : Int) : Int := max (-2147483648) (min 2147483647 v)

/-- The entry with a T difference and the time split it gives (R81). -/
def PeerEntry.withDifference (e : PeerEntry) (v : Option Int) : PeerEntry :=
  { e with tDifference := v, timeSplit := v.any splitBy }

/-- PEER_DISCORDANT where an entry found not split has become split (R81, R82). -/
def discordantEvents (before after : PeerEntry) : List Event :=
  if after.timeSplit && !before.timeSplit then [.peerDiscordant after.address (heldDifference (after.tDifference.getD 0))]
  else []

/-- SCALE_SPLIT: both CONFIRMED and the two values of D differ (R83). -/
def State.splitsScale (s : State) (e : PeerEntry) : Bool :=
  match e.view with
  | some v => s.ss.status == .confirmed && v.status == .confirmed && s.ss.d != some v.d
  | none => false

/-! ## Notices (R85) -/

/-- What the table offers the Candidate Table for an address. -/
def PeerTable.offerOf (pt : PeerTable) (address : Nat) : Option (Bool × List ViewEntry × Option ScaleStatus) :=
  (pt.find address).bind PeerEntry.offer

/-- The addresses a peer notice names: those whose offer changed and those purged. -/
def changedAddresses (before after : PeerTable) : List Nat :=
  (List.range 32).filter fun a =>
    before.offerOf a != after.offerOf a || ((before.find a).isSome && (after.find a).isNone)

/-- Gives the notices due after the table's work for one event. -/
def State.peerNotices (before : PeerTable) (s : State) : State :=
  { s with
    mail :=
      { s.mail with
        peer := if changedAddresses before s.pt = [] then s.mail.peer else s.mail.peer ++ [changedAddresses before s.pt]
        peerScale := if s.pt.scaleOffer = before.scaleOffer then s.mail.peerScale else s.mail.peerScale + 1 } }

/-! ## Taking a frame (section 5.2) -/

/-- The entry as the frame's view leaves it, with the reports of what could not be read (R79, R80, R83). -/
def State.takeView (f : ReceivedFrame) (e : PeerEntry) (s : State) : PeerEntry × State :=
  if e.replaces f then
    match f.view with
    | some (v, dropped) =>
      let e' := { e with view := some v }
      ({ e' with scaleSplit := s.splitsScale e' },
        dropped.foldl (fun s d => s.reportEntry f.sender d.1 (byteAt d.2 0) (fieldAt d.2 1 4)) s)
    | none => (e, s.reportEntry f.sender 0 0 0)
  else (e, s)

/-- A frame handed on by the Scale Bus Interface (R76 to R81, R83, R85). -/
def State.takeFrame (f : ReceivedFrame) (s : State) : State :=
  if s.commissioned then
    let found := s.pt.find f.sender
    let joined := if found.isNone then s.raise (.peerJoined f.sender f.version) else s
    let entry := { found.getD (PeerEntry.fresh f.sender) with state := .live, age := 0 }
    let viewed := joined.takeView f entry
    let final := viewed.1.withDifference (s.differenceTo f.t viewed.1)
    let s' := viewed.2
    (({ s' with pt := { s'.pt with entries := putEntry final s'.pt.entries } } : State).raiseAll
      (discordantEvents entry final)).peerNotices s.pt
  else s

/-! ## The edge (R82, R86, R87) -/

/-- The span of a T difference (R82). -/
def heldSpan (v : Int) : Int := max (-4294967295) (min 4294967295 v)

/-- What the load indication does to an entry (R82). -/
def loadEntry (load : LoadIndication) (_ : Nat) (e : PeerEntry) : PeerEntry × List Event :=
  match load, e.tDifference with
  | .set, _ => (e.withDifference none, [])
  | .stepped delta, some v =>
    let e' := e.withDifference (some (heldSpan (v - delta)))
    (e', discordantEvents e e')
  | .stepped _, none | .noLoad, _ => (e, [])

/-- An entry past the peer timeout goes SILENT (R86). -/
def silentEntry (timeout : Nat) (e : PeerEntry) : PeerEntry × List Event :=
  if e.state = .live ∧ timeout < e.age then ({ e with state := .silent }, [.peerSilent e.address e.age]) else (e, [])

/-- The aging of an entry (R86). -/
def ageEntry (timeout : Nat) (_ : Nat) (e : PeerEntry) : PeerEntry × List Event :=
  silentEntry timeout { e with age := upTo 65535 e.age }

/-- An entry that is purged (R87). -/
def PeerEntry.purged (timeout : Nat) (e : PeerEntry) : Bool := e.state == .silent && decide (9 * timeout < e.age)

/-- Puts the entries that one piece of work has made, and raises its events. -/
def State.putEntries (r : List PeerEntry × List Event) (s : State) : State :=
  ({ s with pt := { s.pt with entries := r.1 } } : State).raiseAll r.2

/-- The peer timeout in force; a table without one is empty (R76). -/
def State.peerTimeout (s : State) : Nat := (s.params.map (·.peerTimeout)).getD 0

/-- The Peer Table's handling of an edge (R82, R85 to R87). The entry-invalid flag has been cleared as the edge began
(State.edgeFlags). The events of several entries come in address order, those of the load before those of the aging (log 46). -/
def State.peerEdge (load : LoadIndication) (s : State) : State :=
  let loaded := s.putEntries (takeEach (loadEntry load) 0 s.pt.entries)
  let aged := loaded.putEntries (takeEach (ageEntry s.peerTimeout) 0 loaded.pt.entries)
  ({ aged with
      pt := { aged.pt with entries := aged.pt.entries.filter (fun e => !e.purged s.peerTimeout) } } : State).peerNotices
    s.pt

/-- PEER_SILENT of one address: what the edge does to an entry past the timeout, and nothing to another (R86; log 6). -/
def State.peerSilent (address : Nat) (s : State) : State :=
  (s.putEntries
    (takeEach (fun _ e => if e.address = address then silentEntry s.peerTimeout e else (e, [])) 0 s.pt.entries)).peerNotices
    s.pt

/-- PEER_PURGE of one address: what the edge does to an entry that has been SILENT long enough (R87; log 6). -/
def State.peerPurge (address : Nat) (s : State) : State :=
  ({ s with
      pt :=
        { s.pt with
          entries := s.pt.entries.filter (fun e => !(e.address == address && e.purged s.peerTimeout)) } } : State).peerNotices
    s.pt

/-- The table takes a scale notice: the scale split of every entry (R83). -/
def State.takePeerTableScale (s : State) : State :=
  ({ s with
      pt := { s.pt with entries := s.pt.entries.map (fun e => { e with scaleSplit := s.splitsScale e }) } } : State).peerNotices
    s.pt

/-! ## READ_PEERS (R88) -/

/-- An entry in a reply (log 26). -/
def PeerEntry.bytes (e : PeerEntry) : List Byte :=
  [small e.address, small e.state.code] ++ beBytes 2 e.age
    ++ (match e.view with
      | some v =>
        beBytes 2 v.version ++ [small v.status.code, small v.d, small v.timeState.code, small v.pulseState.code]
      | none => List.replicate 6 0)
    ++ optionalField (fun v => signedBytes 4 (heldDifference v)) e.tDifference
    ++ listField ViewEntry.bytes e.entries
    ++ [flagByte e.timeSplit, flagByte e.scaleSplit, flagByte e.listing, flagByte e.voting, flagByte e.scalePeer]

/-- The meaning of READ_PEERS (R88). -/
def execReadPeers (payload : List Byte) (s : State) : Host.Outcome State Fault Refusal :=
  .next (s.takeCommand 7 payload fun s =>
    if payload = [] then s.respond .ok (listField PeerEntry.bytes s.pt.entries) else s.respond .malformed [])

/-! ## The meanings of the Peer Table's own commands -/

/-- The meaning of PEER_SILENT (R86). -/
def execPeerSilent (address : Nat) (s : State) : Host.Outcome State Fault Refusal :=
  .next (if s.held then s else s.peerSilent address)

/-- The meaning of PEER_PURGE (R87). -/
def execPeerPurge (address : Nat) (s : State) : Host.Outcome State Fault Refusal :=
  .next (if s.held then s else s.peerPurge address)

/-- The meaning of PEER_TABLE_SCALE_NOTICE (R83). -/
def execPeerTableScaleNotice (s : State) : Host.Outcome State Fault Refusal :=
  .next
    (if s.held then s
    else
      match s.mail.peerTableScale with
      | [] => s
      | _ :: rest => ({ s with mail := { s.mail with peerTableScale := rest } } : State).takePeerTableScale)

end Sys2Proof.Machine
end

