-- ==== Sys2Proof/Machine/Sources.lean ====
section
/-! DEFINITION. Source Intake and the operator entry (03_source_intake_and_the_operator_entry.md), all but
SET_OPERATOR_ENTRY, whose reply needs the Candidate Table's pass. -/

namespace Sys2Proof.Machine

/-! ## The offset check (section 3.4) -/

/-- The Candidate Table holds an ACCEPTED or ARMED leap of this kind with T < E ≤ T + 2 × source timeout (R49). -/
def State.leapAhead (s : State) (kind : ChangeKind) : Bool :=
  match s.params with
  | none => false
  | some p =>
    s.ct.records.any fun r =>
      r.key.kind == kind && r.state != .proposed && decide ((s.tb.t : Int) < r.epoch)
        && decide (r.epoch ≤ (s.tb.t : Int) + 2 * p.sourceTimeout)

/-- A settled report is EARLY (R49). -/
def State.early (s : State) (o : Observation) (d : Nat) : Bool :=
  o.leap == .noLeap && ((o.d == d + 1 && s.leapAhead .leapInsert) || (o.d + 1 == d && s.leapAhead .leapDelete))

/-- A settled report is LAGGING: its D equals the D before of the applied-change record (R47). -/
def State.lagging (s : State) (o : Observation) : Bool :=
  match s.si.applied with
  | some a => o.d == a.dBefore
  | none => false

/-- The status and standing that the offset check gives a settled report (R46 to R50). -/
def State.offsetCheck (s : State) (o : Observation) : SourceStatus × Standing :=
  if s.ss.status = .confirmed ∧ s.ss.d ≠ some o.d then
    if s.lagging o then (.fresh, .lagging)
    else if s.early o s.dNow then (.fresh, .early)
    else (.discordant, .current)
  else (.fresh, .current)

/-- The events of a change of status: into FRESH or into DISCORDANT from any other status (R39, R50). -/
def statusEvents (i : Nat) (before after : SourceStatus) (d own : Nat) : List Event :=
  if after = .fresh ∧ before ≠ .fresh then [.sourceFresh i d]
  else if after = .discordant ∧ before ≠ .discordant then [.sourceDiscordant i d own]
  else []

/-- The source's status and standing set by the check of its settled report. -/
def State.checkedSource (s : State) (i : Nat) (r : SourceRecord) (o : Observation) : SourceRecord × List Event :=
  let c := s.offsetCheck o
  ({ r with status := c.1, standing := c.2 }, statusEvents i r.status c.1 o.d s.dNow)

/-- The offset check of a source outside an intake: only with a repeat count of Nd or more, and not STALE (R46). -/
def State.recheckSource (s : State) (i : Nat) (r : SourceRecord) : SourceRecord × List Event :=
  match s.params, r.settled with
  | some p, some o => if p.nd ≤ r.repeats ∧ r.status ≠ .stale then s.checkedSource i r o else (r, [])
  | _, _ => (r, [])

/-! ## Keys (section 3.3) -/

/-- The day of a flag-only leap: the first day of the month after the current label's, or, out of calendar range, a day
that fails validity and is otherwise free (R42; log 14). -/
def State.flagDay (s : State) : Nat :=
  match nextMonthDay (utcLabel s.tb.t s.dNow) with
  | some n => n
  | none => Config.calendarDays + (Config.leapDay s.free).toNat

/-- The grace of an applied leap of this kind suppresses a flag-only leap (R48). -/
def State.flagSuppressed (s : State) (kind : ChangeKind) : Bool :=
  match s.si.applied with
  | some a => a.kind == kind
  | none => false

/-- The leap key of a report (R41, R42, R48). -/
def State.leapKey (s : State) (o : Observation) : List Key :=
  let key (kind : ChangeKind) : List Key :=
    match o.day with
    | some n => [{ kind := kind, target := .utc, day := n, value := none }]
    | none => if s.flagSuppressed kind then [] else [{ kind := kind, target := .utc, day := s.flagDay, value := none }]
  match o.leap with
  | .noLeap => []
  | .insert => key .leapInsert
  | .delete => key .leapDelete

/-- The local shift key of a report (R41). -/
def shiftKey (o : Observation) : List Key :=
  match o.change with
  | some c => [{ kind := .localShift, target := .zone c.zone, day := c.minute, value := some c.offset }]
  | none => []

/-- The keys of a report, the leap key before the shift key. -/
def State.reportKeys (s : State) (o : Observation) : List Key := s.leapKey o ++ shiftKey o

/-- The derivation of a source's keys, with the report-unusable mark (R41, R43). -/
def State.deriveSource (s : State) (i : Nat) (r : SourceRecord) : SourceRecord × List Event :=
  if s.scaled then
    match r.settled with
    | none => ({ r with keys := [] }, [])
    | some o =>
      match (s.reportKeys o).find? (fun k => !k.valid s.ss.d) with
      | some bad =>
        ({ r with unusable := true, keys := [] }, if r.unusable then [] else [.sourceReportInvalid i bad])
      | none => ({ r with unusable := false, keys := s.reportKeys o }, [])
  else ({ r with keys := [] }, [])

/-! ## Notices and sweeps -/

/-- Gives the notices due after Source Intake's work for one event: a report notice where the offer changed (R44), a source
notice where the settled D values changed (R45). -/
def State.sourceNotices (before : SourceIntake) (s : State) : State :=
  { s with
    mail :=
      { s.mail with
        report := if s.si.offer = before.offer then s.mail.report else s.mail.report + 1
        source := if s.si.offeredDs = before.offeredDs then s.mail.source else s.mail.source + 1 } }

/-- Puts the sources that one piece of work has made, and raises its events. -/
def State.putSources (r : List SourceRecord × List Event) (s : State) : State :=
  ({ s with si := { s.si with sources := r.1 } } : State).raiseAll r.2

/-- The offset check of every source (R46). -/
def State.recheckSources (s : State) : State := s.putSources (takeEach s.recheckSource 0 s.si.sources)

/-- The derivation of every source's keys (R41); the counter of the free values moves on. -/
def State.deriveSources (s : State) : State :=
  let s' := s.putSources (takeEach s.deriveSource 0 s.si.sources)
  { s' with free := s'.free + 1 }

/-- An operator item that the first or third case of R55 removes: its epoch reached, or its key no longer valid. -/
def State.itemLapsed (s : State) (i : OperatorItem) : Bool :=
  decide (i.key.epoch s.dNow ≤ (s.tb.t : Int)) || !i.key.valid s.ss.d

/-- Replaces the operator entry, with an operator notice where it has changed (R52, R55). An item that is left keeps its position
(R55; log 47). -/
def State.keepItems (items : List OperatorItem) (s : State) : State :=
  if items = s.si.operator then s
  else
    { s with
      si := { s.si with operator := items }
      mail := { s.mail with operator := s.mail.operator + 1 } }

/-- The first and third cases of R55, tested while the time state is SET and the scale status is not UNKNOWN. -/
def State.sweepOperator (s : State) : State :=
  if s.scaled then s.keepItems (s.si.operator.filter (fun i => !s.itemLapsed i)) else s

/-! ## The edge, and the notices taken (R40, R46, R47, R55) -/

/-- A source past its timeout becomes STALE (R40). -/
def staleSource (timeout i : Nat) (r : SourceRecord) : SourceRecord × List Event :=
  if timeout < r.age ∧ (r.status = .settling ∨ r.status = .fresh ∨ r.status = .discordant) then
    ({ r with status := .stale, standing := .current }, [.sourceStale i r.age])
  else (r, [])

/-- The aging of a source at an edge (R40). -/
def ageSource (timeout i : Nat) (r : SourceRecord) : SourceRecord × List Event :=
  if r.status = .empty then (r, []) else staleSource timeout i { r with age := upTo 65535 r.age }

/-- The applied-change record once its grace has run out is absent (R47). -/
def graceLeft (a : Option AppliedChange) : Option AppliedChange :=
  match a with
  | some a => if a.grace = 0 then none else some a
  | none => none

/-- The grace at an edge: it falls by one, and at 0 the record becomes absent (R47). -/
def graceAtEdge (a : Option AppliedChange) : Option AppliedChange :=
  graceLeft (a.map (fun a => { a with grace := a.grace - 1 }))

/-- Source Intake's handling of an edge: aging, the grace, the offset checks, the keys, the operator items, the notices. Each kind
of work is done for every source before the next, and the events come in that order (log 46). -/
def State.sourceEdge (s : State) : State :=
  let aged :=
    match s.params with
    | some p => s.putSources (takeEach (ageSource p.sourceTimeout) 0 s.si.sources)
    | none => s
  let s' : State := { aged with si := { aged.si with applied := graceAtEdge aged.si.applied } }
  (s'.recheckSources.deriveSources.sweepOperator).sourceNotices s.si

/-- SOURCE_STALE of one source: what the edge does to a source whose age exceeds the timeout, and nothing to another
(R40; log 6). -/
def State.sourceStale (source : Nat) (s : State) : State :=
  match s.params with
  | some p =>
    (s.putSources (takeEach (fun i r => if i = source then staleSource p.sourceTimeout i r else (r, [])) 0 s.si.sources)
      ).sourceNotices s.si
  | none => s

/-- Re-makes the offset checks and the keys, with the notices due (R46; log 15): every source's check before any derivation, which
is the order of their events too (log 46). -/
def State.refreshSources (before : SourceIntake) (s : State) : State :=
  (s.recheckSources.deriveSources).sourceNotices before

/-- GRACE_EXPIRY: a grace of 0 makes the applied-change record absent, and the sources are checked afresh (R47; log 6). -/
def State.graceExpiry (s : State) : State :=
  match s.si.applied with
  | some a =>
    if a.grace = 0 then ({ s with si := { s.si with applied := none } } : State).refreshSources s.si else s
  | none => s

/-- Source Intake takes an applied-change notice: the record with a grace of 2 × source timeout (R47). -/
def State.takeAppliedChange (kind : ChangeKind) (dBefore : Nat) (s : State) : State :=
  let grace := 2 * ((s.params.map (·.sourceTimeout)).getD 0)
  ({ s with si := { s.si with applied := some { kind := kind, dBefore := dBefore, grace := grace } } } : State).refreshSources
    s.si

/-- Source Intake takes a scale notice (R41, R46, R55), the work in the order that it has at an edge (log 46). -/
def State.takeSourceScale (s : State) : State :=
  (s.recheckSources.deriveSources.sweepOperator).sourceNotices s.si

/-- Source Intake takes a candidate notice with its application report (R49, R55, R116), the checks by source index (log 46). -/
def State.takeCandidateNotice (n : CandidateNotice) (s : State) : State :=
  let s' := if n.leapMoved then s.recheckSources else s
  (s'.keepItems (s'.si.operator.filter (fun i => !n.applied.contains i.key))).sourceNotices s.si

/-! ## OBSERVE (section 3.2) -/

/-- The first field of an observation that fails, if any (R37). -/
def ObserveRequest.failure (o : ObserveRequest) : Option Nat :=
  if ¬ o.source < 4 then some 1
  else if ¬ (10 ≤ o.d ∧ o.d ≤ 255) then some 2
  else if (LeapIndicator.ofCode o.leapCode).isNone then some 3
  else if o.day.any (fun n => o.leapCode == 0 || !firstOfMonth n) then some 4
  else if o.change.any (fun c => !decide (c.zone < 4)) then some 5
  else if o.change.any (fun c => !zoneOffsetOk c.offset) then some 6
  else if o.change.any (fun c => !decide (c.minute < Config.calendarMinutes)) then some 7
  else none

/-- The observation of a request that passes. -/
def ObserveRequest.observation (o : ObserveRequest) : Observation :=
  { d := o.d, leap := (LeapIndicator.ofCode o.leapCode).getD .noLeap, day := o.day, change := o.change }

/-- The record after an accepted observation has been compared and counted (R38). A settled report that is replaced loses
its report-unusable mark (R43). -/
def countObservation (nd : Nat) (o : Observation) (r : SourceRecord) : SourceRecord :=
  let r' := { r with last := some o, age := 0, repeats := if r.last = some o then upTo 255 r.repeats else 1 }
  if r'.repeats = nd then { r' with settled := some o, unusable := false } else r'

/-- The status and the keys after an intake (R39). -/
def State.intake (nd : Nat) (o : Observation) (s : State) (i : Nat) (r : SourceRecord) : SourceRecord × List Event :=
  let counted := countObservation nd o r
  let judged :=
    if counted.repeats < nd then ({ counted with status := .settling, standing := .current }, [])
    else s.checkedSource i counted o
  let derived := s.deriveSource i judged.1
  (derived.1, judged.2 ++ derived.2)

/-- OBSERVE, its form passed: the participation, the fields, the intake, the reply (R37 to R39). -/
def State.observe (o : ObserveRequest) (s : State) : State :=
  match s.params with
  | none => s.refuse
  | some p =>
    match o.failure with
    | some index => s.outOfRange index
    | none =>
      let s' : State :=
        s.putSources (takeEach (fun i r => if i = o.source then s.intake p.nd o.observation i r else (r, [])) 0 s.si.sources)
      let s'' := ({ s' with free := s'.free + 1 } : State).sourceNotices s.si
      let r := s''.si.sources.getD o.source SourceRecord.reset
      s''.respond .ok [small r.status.code, small r.repeats]

/-- The meaning of OBSERVE (R37 to R39); its payload has 12 bytes (R189). -/
def execObserve (payload : List Byte) (s : State) : Host.Outcome State Fault Refusal :=
  .next (s.takeCommand 3 payload fun s => if payload.length = 12 then s.observe (readObserve payload) else s.respond .malformed [])

/-! ## READ_SOURCES (R56) -/

/-- A source record in a reply, with the keys it offers. -/
def SourceRecord.bytes (r : SourceRecord) : List Byte :=
  [small r.status.code, small r.standing.code] ++ optionalField Observation.bytes r.last
    ++ [small r.repeats] ++ beBytes 2 r.age ++ optionalField Observation.bytes r.settled ++ [flagByte r.unusable]
    ++ listField Key.bytes r.offered

/-- The reply of READ_SOURCES; the grace remaining takes two bytes (log 26). -/
def State.sourcesReply (s : State) : List Byte :=
  s.si.sources.flatMap SourceRecord.bytes
    ++ optionalField (fun a : AppliedChange => [small a.kind.code, small a.dBefore] ++ beBytes 2 a.grace) s.si.applied
    ++ operatorBytes s.si.operator ++ beBytes 2 s.ct.version

/-- The meaning of READ_SOURCES (R56). -/
def execReadSources (payload : List Byte) (s : State) : Host.Outcome State Fault Refusal :=
  .next (s.takeCommand 6 payload fun s =>
    if payload = [] then s.respond .ok s.sourcesReply else s.respond .malformed [])

/-! ## The meanings of Source Intake's own commands -/

/-- The meaning of SOURCE_STALE (R40). -/
def execSourceStale (source : Nat) (s : State) : Host.Outcome State Fault Refusal :=
  .next (if s.held then s else s.sourceStale source)

/-- The meaning of APPLIED_CHANGE_NOTICE: the oldest such notice that waits is taken (R47; log 4). -/
def execAppliedChangeNotice (s : State) : Host.Outcome State Fault Refusal :=
  .next
    (if s.held then s
    else
      match s.mail.appliedChange with
      | [] => s
      | n :: rest => ({ s with mail := { s.mail with appliedChange := rest } } : State).takeAppliedChange n.1 n.2)

/-- The meaning of GRACE_EXPIRY (R47). -/
def execGraceExpiry (s : State) : Host.Outcome State Fault Refusal := .next (if s.held then s else s.graceExpiry)

/-- The meaning of SOURCE_SCALE_NOTICE (R46). -/
def execSourceScaleNotice (s : State) : Host.Outcome State Fault Refusal :=
  .next
    (if s.held then s
    else
      match s.mail.sourceScale with
      | [] => s
      | _ :: rest => ({ s with mail := { s.mail with sourceScale := rest } } : State).takeSourceScale)

/-- The meaning of CANDIDATE_NOTICE (R116). -/
def execCandidateNotice (s : State) : Host.Outcome State Fault Refusal :=
  .next
    (if s.held then s
    else
      match s.mail.candidate with
      | [] => s
      | n :: rest => ({ s with mail := { s.mail with candidate := rest } } : State).takeCandidateNotice n)

end Sys2Proof.Machine
end

