-- ==== Sys2Proof/Machine/Candidates.lean ====
section
/-! DEFINITION. The Candidate Table (06_the_candidate_table.md): the pass and its twelve steps, READ_CANDIDATES and
SET_OPERATOR_ENTRY. -/

namespace Sys2Proof.Machine

/-! ## What a pass reads -/

/-- The late margin has been reached: E − 2 ≤ T (R105). -/
def State.lateFor (s : State) (epoch : Int) : Bool := decide (epoch - 2 ≤ (s.tb.t : Int))

/-- The arm window: E − Ha ≤ T < E − 2 (section 6.6). -/
def State.inWindow (s : State) (epoch : Int) : Bool :=
  match s.params with
  | some p => decide (epoch - p.ha ≤ (s.tb.t : Int)) && decide ((s.tb.t : Int) < epoch - 2)
  | none => false

/-- A count reaches Qmin. -/
def State.quorum (s : State) (count : Nat) : Bool :=
  match s.params with
  | some p => decide (p.qmin ≤ count)
  | none => false

/-- The dissent horizon has been reached: T ≥ E − Hd × 3,600 (R100). -/
def State.pastHorizon (s : State) (epoch : Int) : Bool :=
  match s.params with
  | some p => decide (epoch - p.hd * 3600 ≤ (s.tb.t : Int))
  | none => false

/-- What the operator entry decides on a key (R98, R99). -/
def State.decisionOn (s : State) (key : Key) : Option Decision :=
  (s.si.operator.find? (fun i => i.key == key)).map (·.decision)

/-- The record of a key. -/
def CandidateTable.find (ct : CandidateTable) (key : Key) : Option Candidate := ct.records.find? (fun r => r.key == key)

/-- A rival of the key is ARMED in the table (R102, R109). -/
def CandidateTable.rivalArmed (ct : CandidateTable) (key : Key) : Bool :=
  ct.records.any (fun r => r.key.rival key && r.state == .armed)

/-! ## Table order (R90) -/

/-- One key with its epoch precedes another. -/
def precedes (a b : Key × Int) : Bool := ranksBefore (a.1.rank a.2) (b.1.rank b.2)

/-- A record put in its place in table order (R90). -/
def insertRecord (c : Candidate) : List Candidate → List Candidate
  | [] => [c]
  | r :: rest => if precedes (c.key, c.epoch) (r.key, r.epoch) then c :: r :: rest else r :: insertRecord c rest

/-- A key put in its place in table order; a key already there stays once. -/
def insertKey (k : Key × Int) : List (Key × Int) → List (Key × Int)
  | [] => [k]
  | r :: rest =>
    if k.1 = r.1 then r :: rest else if precedes k r then k :: r :: rest else r :: insertKey k rest

/-- Keys in table order, each once, by the epoch each has with the current D (R93). -/
def State.inTableOrder (s : State) (keys : List Key) : List (Key × Int) :=
  keys.foldl (fun l k => insertKey (k, k.epoch s.dNow) l) []

/-! ## Removal and the barred list (R89, R97) -/

/-- Puts records in the table. -/
def State.putRecords (records : List Candidate) (s : State) : State := { s with ct := { s.ct with records := records } }

/-- Removes the records that `gone` names, with an event for each in table order. -/
def State.removeRecords (gone : Candidate → Bool) (event : Key → Event) (s : State) : State :=
  (s.putRecords (s.ct.records.filter (fun r => !gone r))).raiseAll ((s.ct.records.filter gone).map (fun r => event r.key))

/-- A key joins the barred list as its newest entry; a full list loses the entry that joined earliest (R97). -/
def barKey (b : Barred) (list : List Barred) : List Barred :=
  let others := list.filter (fun x => x.key != b.key)
  others.drop (others.length - 7) ++ [b]

/-- Keys join the barred list in order. -/
def State.barAll (reason : BarReason) (keys : List (Key × Int)) (s : State) : State :=
  { s with
    ct :=
      { s.ct with
        barred := keys.foldl (fun l k => barKey { key := k.1, reason := reason, epoch := k.2 } l) s.ct.barred } }

/-! ## Steps 1 to 3 -/

/-- Step 1: epochs and the test of the open records, if D has changed (R92). -/
def State.stepEpochs (s : State) : State :=
  match s.ss.d with
  | none => s
  | some d =>
    if s.ct.epochD = some d then s
    else
      let s' : State :=
        { s with
          ct :=
            { s.ct with
              records := s.ct.records.map (fun r => { r with epoch := r.key.epoch d })
              barred := s.ct.barred.map (fun b => { b with epoch := b.key.epoch d })
              epochD := some d } }
      s'.removeRecords (fun r => r.state != .armed && !r.key.valid (some d)) (fun k => .candidateWithdrawn k .invalid)

/-- Step 2: the CONFLICTED entries that have run out (R97). -/
def State.stepBarred (s : State) : State :=
  { s with ct := { s.ct with barred := s.ct.barred.filter (fun b => !(b.reason == .conflicted && s.lateFor b.epoch)) } }

/-- Step 3: expiry (R105). -/
def State.stepExpiry (s : State) : State :=
  s.removeRecords (fun r => r.state != .armed && s.lateFor r.epoch) Event.candidateExpired

/-! ## Step 4: admission (section 6.3) -/

/-- The keys the sources offer. -/
def State.sourceKeys (s : State) : List Key := s.si.offer.flatMap (·.2)

/-- The keys of the AFFIRM items. -/
def State.affirmedKeys (s : State) : List Key := (s.si.operator.filter (fun i => i.decision == .affirm)).map (·.key)

/-- The listing peers. -/
def State.listingPeers (s : State) : List PeerEntry := s.pt.entries.filter PeerEntry.listing

/-- The voting peers. -/
def State.votingPeers (s : State) : List PeerEntry := s.pt.entries.filter PeerEntry.voting

/-- The keys the listing peers list. -/
def State.peerKeys (s : State) : List Key := s.listingPeers.flatMap (fun e => e.entries.map (·.key))

/-- The admitting origin: the first of SOURCE, OPERATOR and PEER that offers the key (R94). -/
def State.originOf (s : State) (key : Key) : Origin :=
  if s.sourceKeys.contains key then .source else if s.affirmedKeys.contains key then .operator else .peer

/-- The bar that keeps a key out: of either reason from ordinary admission, of APPLIED alone from follow (R97, R109). -/
def State.barredKey (s : State) (follow : Bool) (key : Key) : Bool :=
  s.ct.barred.any (fun b => b.key == key && (b.reason == .applied || !follow))

/-- The conditions of R94, for a key that no record holds. -/
def State.admissible (s : State) (follow : Bool) (key : Key) : Bool :=
  s.scaled && !s.barredKey follow key && key.valid s.ss.d && !s.lateFor (key.epoch s.dNow)

/-- The record of a newcomer (R94). -/
def State.newRecord (s : State) (key : Key) : Candidate :=
  { key := key, epoch := key.epoch s.dNow, state := .proposed, armedBy := none, stance := .abstain, pro := 0, con := 0
    peerArmed := 0, sources := [], operator := none, peers := [], firstSeen := s.tb.t }

/-- The PROPOSED record that a newcomer may evict: the last in table order (R96). -/
def CandidateTable.evictable (ct : CandidateTable) : Option Candidate :=
  (ct.records.filter (fun r => r.state == .proposed)).getLast?

/-- The newcomer takes its place, and CANDIDATE_NEW is raised (R94, R109). -/
def State.enter (origin : Origin) (key : Key) (s : State) : State :=
  (s.putRecords (insertRecord (s.newRecord key) s.ct.records)).raise (.candidateNew key origin)

/-- TABLE_FULL, once in a second (R96). -/
def State.refuseKey (key : Key) (s : State) : State :=
  if s.ct.tableFull then s
  else ({ s with ct := { s.ct with tableFull := true } } : State).raise (.tableFull key)

/-- The admission of an admissible key: room, eviction or refusal (R94, R96). -/
def State.admitKey (origin : Origin) (key : Key) (s : State) : State :=
  if s.ct.records.length < 8 then s.enter origin key
  else
    match s.ct.evictable with
    | some r =>
      if key.epoch s.dNow < r.epoch then
        (s.removeRecords (fun x => x.key == r.key) Event.candidateDropped).enter origin key
      else s.refuseKey key
    | none => s.refuseKey key

/-- The first listing peer that lists a key, and the key's position there (R95). -/
def State.firstLister (s : State) (key : Key) : Option (Nat × Nat) :=
  (s.listingPeers.find? (fun e => e.entries.any (fun v => v.key == key))).map
    fun e => (e.address, e.entries.findIdx (fun v => v.key == key) + 1)

/-- Reports a peer's key that fails validity (R95). -/
def State.reportKey (key : Key) (s : State) : State :=
  match s.firstLister key with
  | some a => s.reportEntry a.1 a.2 key.kindTarget.toNat key.day
  | none => s

/-- One offered key that no record holds (R94, R95; log 18). -/
def State.considerKey (s : State) (key : Key) : State :=
  if !s.scaled then s
  else if !key.valid s.ss.d then s.reportKey key
  else if s.admissible false key then s.admitKey (s.originOf key) key
  else s

/-- The offered keys that no record holds, in table order (R93). -/
def State.newKeys (s : State) : List Key :=
  ((s.inTableOrder (s.sourceKeys ++ s.affirmedKeys ++ s.peerKeys)).map (·.1)).filter (fun k => (s.ct.find k).isNone)

/-- Step 4. -/
def State.stepAdmission (s : State) : State := s.newKeys.foldl State.considerKey s

/-! ## Step 5: origins, stances and tallies (section 6.4) -/

/-- The sources that offer a key (R98). -/
def State.offering (s : State) (key : Key) : List Nat := (s.si.offer.filter (fun o => o.2.contains key)).map (·.1)

/-- The own stance (R99, R100). -/
def State.stanceOn (s : State) (key : Key) (epoch : Int) : Stance :=
  match s.decisionOn key with
  | some .affirm => .witness
  | some .deny => .dissent
  | none =>
    let r := (s.offering key).length
    let n := if s.pastHorizon epoch then s.si.offer.length - r else 0
    if n < r then .witness else if r < n then .dissent else .abstain

/-- The voting peers that list the key with a stance (R101). -/
def State.votes (s : State) (key : Key) (stance : Stance) : Nat :=
  (s.votingPeers.filter (fun e => e.entries.any (fun v => v.key == key && v.stance == stance))).length

/-- The voting peers that list the key ARMED (R101). -/
def State.armedPeers (s : State) (key : Key) : Nat :=
  (s.votingPeers.filter (fun e => e.entries.any (fun v => v.key == key && v.state == .armed))).length

/-- One record formed afresh (R98 to R101). -/
def State.formRecord (s : State) (c : Candidate) : Candidate :=
  let stance := s.stanceOn c.key c.epoch
  { c with
    stance := stance
    pro := (if stance = .witness then 1 else 0) + s.votes c.key .witness
    con := (if stance = .dissent then 1 else 0) + s.votes c.key .dissent
    peerArmed := s.armedPeers c.key
    sources := s.offering c.key
    operator := s.decisionOn c.key
    peers := (s.listingPeers.filter (fun e => e.entries.any (fun v => v.key == c.key))).map (·.address) }

/-- Step 5. -/
def State.stepTallies (s : State) : State := s.putRecords (s.ct.records.map s.formRecord)

/-! ## Steps 6 and 7 -/

/-- The origins are empty (R98). -/
def Candidate.originless (c : Candidate) : Bool := c.sources.isEmpty && c.operator != some .affirm && c.peers.isEmpty

/-- Step 6: withdrawal (R104). -/
def State.stepWithdrawal (s : State) : State :=
  s.removeRecords (fun r => r.state != .armed && r.originless) (fun k => .candidateWithdrawn k .noOrigin)

/-- Why an ACCEPTED record is demoted, if it is (R103). -/
def State.demotion (s : State) (c : Candidate) : Option DemoteReason :=
  if c.state != .accepted then none
  else if !s.quorum c.pro then some .belowQuorum
  else if c.pro ≤ c.con then some .notAhead
  else if c.operator = some .deny then some .denied
  else none

/-- Step 7: demotion (R103). -/
def State.stepDemotion (s : State) : State :=
  let r :=
    takeEach
      (fun _ c =>
        match s.demotion c with
        | some reason => ({ c with state := .proposed }, [.candidateDemoted c.key reason])
        | none => (c, []))
      0 s.ct.records
  (s.putRecords r.1).raiseAll r.2

/-! ## Settlement (R107) -/

/-- What a settlement does to an ACCEPTED record. -/
inductive Settled where
  | kept | wins
  | loses (reason : ConflictReason)
  deriving DecidableEq, Repr

/-- A record's pro is greater than that of every other ACCEPTED record of its group. -/
def aheadOfGroup (records : List Candidate) (c : Candidate) : Bool :=
  records.all fun r => !(r.key.rival c.key && r.state == .accepted) || decide (r.pro < c.pro)

/-- The settlement of the group of an ACCEPTED record, among the records as they stand. It happens where the group holds a
record to be armed and no ARMED one (log 19). -/
def settlement (records : List Candidate) (toArm : Candidate → Bool) (c : Candidate) : Settled :=
  if c.state = .accepted ∧ records.any (fun r => r.key.sameGroup c.key && toArm r)
      ∧ ¬ records.any (fun r => r.key.sameGroup c.key && r.state == .armed) then
    if aheadOfGroup records c then .wins
    else if records.any (fun r => r.key.sameGroup c.key && r.state == .accepted && aheadOfGroup records r) then
      .loses .outvoted
    else .loses .tied
  else .kept

/-- A record as its settlement leaves it. -/
def Candidate.settled (by_ : ArmedBy) (c : Candidate) : Settled → Option Candidate
  | .kept => some c
  | .wins => some { c with state := .armed, armedBy := some by_ }
  | .loses _ => none

/-- The event of a settlement. -/
def settledEvents (by_ : ArmedBy) (key : Key) : Settled → List Event
  | .kept => []
  | .wins => [.candidateArmed key by_]
  | .loses reason => [.candidateConflict key reason]

/-- Settles every group that holds a record to be armed (R107). `first` gives the events of each record that come before
those of its settlement. -/
def State.settle (by_ : ArmedBy) (toArm : Candidate → Bool) (first : Candidate → List Event) (s : State) : State :=
  let records := s.ct.records
  let outcome := settlement records toArm
  let lost := records.filter (fun c => outcome c != .kept && outcome c != .wins)
  ((s.putRecords (records.filterMap (fun c => c.settled by_ (outcome c)))).barAll .conflicted
    (lost.map (fun c => (c.key, c.epoch)))).raiseAll
    (records.flatMap (fun c => first c ++ settledEvents by_ c.key (outcome c)))

/-- Step 8, at an edge: the arm step (R106). -/
def State.stepArm (s : State) : State :=
  s.settle .tally (fun c => c.state == .accepted && s.inWindow c.epoch) (fun _ => [])

/-! ## Step 9: follow (R109) -/

/-- What follow asks of a key, held or absent, but for its admission. -/
def State.followed (s : State) (key : Key) (epoch : Int) : Bool :=
  s.inWindow epoch && s.quorum (s.armedPeers key) && !s.ct.rivalArmed key && s.decisionOn key != some .deny
    && !s.barredKey true key

/-- Arms the record of a key by FOLLOW; the ACCEPTED rivals are removed (R107, R109). Its CANDIDATE_ARMED comes before the
CANDIDATE_CONFLICT of the rivals, wherever they stand in table order (log 54). -/
def State.armByFollow (key : Key) (s : State) : State :=
  let gone (r : Candidate) : Bool := r.key.rival key && r.state == .accepted
  let s' :=
    (s.putRecords
      (s.ct.records.map (fun r => if r.key = key then { r with state := .armed, armedBy := some .follow } else r))).raise
      (.candidateArmed key .follow)
  (s'.removeRecords gone (fun k => .candidateConflict k .rivalArmed)).barAll .conflicted
    ((s'.ct.records.filter gone).map (fun r => (r.key, r.epoch)))

/-- A held record considered for follow. -/
def State.followHeld (s : State) (key : Key) : State :=
  match s.ct.find key with
  | some c => if c.state ≠ .armed ∧ s.followed key c.epoch then s.armByFollow key else s
  | none => s

/-- An absent key considered for follow: it is admitted, its CONFLICTED bar disregarded and then removed, its tallies formed,
and it is armed (R109; log 19). -/
def State.followAbsent (s : State) (key : Key) : State :=
  if s.followed key (key.epoch s.dNow) && s.admissible true key && (s.ct.find key).isNone then
    let admitted := s.admitKey .follow key
    if (admitted.ct.find key).isSome then
      let s' : State :=
        { admitted with
          ct :=
            { admitted.ct with
              barred := admitted.ct.barred.filter (fun b => b.key != key)
              records := admitted.ct.records.map (fun r => if r.key = key then admitted.formRecord r else r) } }
      s'.armByFollow key
    else admitted
  else s

/-- The keys that voting peers show ARMED. -/
def State.peerArmedKeys (s : State) : List Key :=
  s.votingPeers.flatMap (fun e => (e.entries.filter (fun v => v.state == .armed)).map (·.key))

/-- The keys that voting peers show ARMED and that no record holds, in table order. -/
def State.absentArmedKeys (s : State) : List Key :=
  ((s.inTableOrder s.peerArmedKeys).map (·.1)).filter (fun k => (s.ct.find k).isNone)

/-- Step 9: held records first, then absent keys, each in table order. -/
def State.stepFollow (s : State) : State :=
  let s' := (s.ct.records.map (·.key)).foldl State.followHeld s
  s'.absentArmedKeys.foldl State.followAbsent s'

/-! ## Step 10: acceptance and late arming (R102, R108) -/

/-- A PROPOSED record that becomes ACCEPTED (R102). -/
def State.acceptable (s : State) (c : Candidate) : Bool :=
  c.state == .proposed && s.quorum c.pro && decide (c.con < c.pro) && c.operator != some .deny && !s.ct.rivalArmed c.key

/-- Step 10. A settlement that a late acceptance brings about arms its winner by LATE, be it a record that was ACCEPTED before (R107,
R108; log 53). -/
def State.stepAcceptance (s : State) : State :=
  let fresh (key : Key) : Bool := s.ct.records.any (fun c => c.key == key && s.acceptable c)
  (s.putRecords (s.ct.records.map (fun c => if s.acceptable c then { c with state := .accepted } else c))).settle .late
    (fun c => fresh c.key && s.inWindow c.epoch)
    (fun c => if fresh c.key then [.candidateAccepted c.key c.pro c.con] else [])

/-! ## Step 11, at an edge: the due step and the hand-over (R111, R113) -/

/-- Keeps the ACCEPTED and ARMED records as the Lane Stamp Generator's reading of the table (R139). -/
def State.noteReading (s : State) : State :=
  { s with ct := { s.ct with reading := s.ct.records.filter (fun r => r.state != .proposed) } }

/-- The due day-keyed records. -/
def State.dueDays (s : State) : List Candidate :=
  s.ct.records.filter (fun r => r.state == .armed && r.key.isDayKeyed && decide (r.epoch ≤ (s.tb.t : Int)))

/-- D with one change applied to it, as the due step reckons it. -/
def Key.shifted (d : Int) (k : Key) : Int :=
  match k.kind with
  | .leapInsert => d + 1
  | .leapDelete => d - 1
  | .offsetSet => k.value.getD d
  | .localShift => d

/-- D′. -/
def State.dPrime (s : State) : Int := s.dueDays.foldl (fun d r => r.key.shifted d) (s.dNow : Int)

/-- The due local shifts. -/
def State.dueShifts (s : State) : List Candidate :=
  s.ct.records.filter fun r =>
    r.state == .armed && !r.key.isDayKeyed && decide ((r.key.day : Int) * 60 ≤ (s.tb.t : Int) - (s.dPrime - 10))

/-- The due records: the day-keyed first, then the shifts. -/
def State.dueRecords (s : State) : List Candidate := s.dueDays ++ s.dueShifts

/-- Step 11: the due records leave as APPLIED, their keys barred in the order of the hand-over (log 48), and the hand-over is given;
what is left is what the Lane Stamp Generator reads for the second, unless a scale notice follows (R139). -/
def State.stepDue (load : LoadIndication) (s : State) : State :=
  let due := s.dueRecords.map (fun r => (r.key, r.epoch))
  let s' := (s.putRecords (s.ct.records.filter (fun r => !(due.map (·.1)).contains r.key))).noteReading
  let given : HandOver :=
    { t := s.tb.t, timeState := s.tb.timeState, pulseState := s.tb.pulseState, load := load, due := due }
  (({ s' with mail := { s'.mail with handOver := s'.mail.handOver ++ [given] } } : State).barAll .applied due)

/-! ## Step 12: the view and the notices (R114 to R116) -/

/-- The station's view (R114). -/
def State.view (s : State) : View :=
  { records := s.ct.records.map (fun r => { key := r.key, state := r.state, stance := r.stance }), d := s.ss.d
    status := s.ss.status, timeState := s.tb.timeState, pulseState := s.tb.pulseState }

/-- The comparison of the view (R114) and the view notice (R115). -/
def State.compareView (s : State) : State :=
  if s.view = s.ct.lastView then s
  else
    { s with
      ct := { s.ct with version := (s.ct.version + 1) % 65536, lastView := s.view }
      mail := { s.mail with view := s.mail.view + 1 } }

/-- The records armed since `before`, as the arming notice names them (R115). -/
def State.armedSince (before after : State) : List ArmedLeap :=
  (after.ct.records.filter
      (fun r => r.state == .armed && !before.ct.records.any (fun b => b.key == r.key && b.state == .armed))).map
    fun r => { key := r.key, epoch := r.epoch, x := r.key.windowEnd after.dNow }

/-- The arming notice, to the Scale Bus Interface and to the Lane Stamp Generator (R115). -/
def State.giveArming (armed : List ArmedLeap) (s : State) : State :=
  if armed = [] then s
  else
    { s with
      mail :=
        { s.mail with
          arming := s.mail.arming + 1, laneArming := s.mail.laneArming ++ [{ armed := armed, t := s.tb.t }] } }

/-- The candidate notice with its application report, one notice (R116). -/
def State.giveCandidate (n : CandidateNotice) (s : State) : State :=
  if n.leapMoved || !n.applied.isEmpty then { s with mail := { s.mail with candidate := s.mail.candidate ++ [n] } } else s

/-! ## The pass (R91) -/

/-- Steps 1 to 7. -/
def State.passOpening (s : State) : State :=
  s.stepEpochs.stepBarred.stepExpiry.stepAdmission.stepTallies.stepWithdrawal.stepDemotion

/-- Steps 8 and 9. -/
def State.passArming (edge : Bool) (s : State) : State := (if edge then s.stepArm else s).stepFollow

/-- A pass: at an edge with the edge's load indication, or at another event. The table-full flag has been cleared as the edge began
(State.edgeFlags). -/
def State.pass (edge : Option LoadIndication) (s : State) : State :=
  let followed := s.passOpening.passArming edge.isSome
  let accepted := followed.stepAcceptance
  let due : State :=
    match edge with
    | some load => accepted.stepDue load
    | none => accepted
  let moved :=
    s.ct.committedLeaps != due.ct.committedLeaps || followed.ct.records.any (fun c => c.key.isLeap && followed.acceptable c)
  let applied := if edge.isSome then accepted.dueRecords.map (·.key) else []
  (due.compareView.giveArming (State.armedSince s accepted)).giveCandidate { leapMoved := moved, applied := applied }

/-! ## The notices the table takes -/

/-- Takes a report notice (R44). -/
def State.takeReport (s : State) : State :=
  if s.mail.report = 0 then s else ({ s with mail := { s.mail with report := s.mail.report - 1 } } : State).pass none

/-- Takes an operator notice (R52). -/
def State.takeOperator (s : State) : State :=
  if s.mail.operator = 0 then s else ({ s with mail := { s.mail with operator := s.mail.operator - 1 } } : State).pass none

/-- Takes a peer notice (R85). -/
def State.takePeer (s : State) : State :=
  match s.mail.peer with
  | [] => s
  | _ :: rest => ({ s with mail := { s.mail with peer := rest } } : State).pass none

/-- Takes a scale notice (R91, R92). The table as the pass for one of an edge's work leaves it is what the Lane Stamp Generator
reads for the second (R139). -/
def State.takeCandidateScale (s : State) : State :=
  match s.mail.candidateScale with
  | [] => s
  | n :: rest =>
    let t := ({ s with mail := { s.mail with candidateScale := rest } } : State).pass none
    if n.ofEdge then t.noteReading else t

/-- Takes a time-base notice (R91). -/
def State.takeTimeBase (s : State) : State :=
  if s.mail.timeBase = 0 then s else ({ s with mail := { s.mail with timeBase := s.mail.timeBase - 1 } } : State).pass none

/-- The meaning of REPORT_NOTICE (R44). -/
def execReportNotice (s : State) : Host.Outcome State Fault Refusal := .next (if s.held then s else s.takeReport)

/-- The meaning of OPERATOR_NOTICE (R52). -/
def execOperatorNotice (s : State) : Host.Outcome State Fault Refusal := .next (if s.held then s else s.takeOperator)

/-- The meaning of PEER_NOTICE (R85). -/
def execPeerNotice (s : State) : Host.Outcome State Fault Refusal := .next (if s.held then s else s.takePeer)

/-- The meaning of CANDIDATE_SCALE_NOTICE (R92). -/
def execCandidateScaleNotice (s : State) : Host.Outcome State Fault Refusal :=
  .next (if s.held then s else s.takeCandidateScale)

/-- The meaning of TIME_BASE_NOTICE (R91). -/
def execTimeBaseNotice (s : State) : Host.Outcome State Fault Refusal := .next (if s.held then s else s.takeTimeBase)

/-! ## READ_CANDIDATES (R119) -/

/-- A record in a reply (log 26). -/
def Candidate.bytes (c : Candidate) : List Byte :=
  c.key.bytes ++ beBytes 4 c.epoch.toNat ++ [small c.state.code]
    ++ optionalField (fun b : ArmedBy => [small b.code]) c.armedBy
    ++ [small c.stance.code, small c.pro, small c.con, small c.peerArmed]
    ++ listField (fun i => [small i]) c.sources ++ optionalField (fun d : Decision => [small d.code]) c.operator
    ++ listField (fun a => [small a]) c.peers ++ beBytes 4 c.firstSeen

/-- A barred entry in a reply. -/
def Barred.bytes (b : Barred) : List Byte := b.key.bytes ++ [small b.reason.code] ++ beBytes 4 b.epoch.toNat

/-- The reply of READ_CANDIDATES. -/
def State.candidatesReply (s : State) : List Byte :=
  beBytes 2 s.ct.version ++ listField Candidate.bytes s.ct.records ++ listField Barred.bytes s.ct.barred

/-- The meaning of READ_CANDIDATES (R119). -/
def execReadCandidates (payload : List Byte) (s : State) : Host.Outcome State Fault Refusal :=
  .next (s.takeCommand 8 payload fun s =>
    if payload = [] then s.respond .ok s.candidatesReply else s.respond .malformed [])

/-! ## SET_OPERATOR_ENTRY (R53, R54) -/

/-- Why an operator item is refused (R53). -/
inductive ItemFault where
  | range | late
  deriving DecidableEq, Repr

/-- The D with which an operator item is tested: none while the scale status is UNKNOWN (R53). -/
def State.operatorD (s : State) : Option Nat := if s.ss.status = .unknown then none else s.ss.d

/-- The check of the item at a position, after the keys of the earlier items (R53). -/
def State.checkItem (s : State) (position : Nat) (earlier : List Key) (r : OperatorRequest) : Except ItemFault OperatorItem :=
  match r.key, r.decision with
  | some key, some decision =>
    if !key.valid s.operatorD || earlier.contains key then .error .range
    else if s.scaled && s.lateFor (key.epoch s.dNow) then .error .late
    else .ok { position := position, key := key, decision := decision }
  | _, _ => .error .range

/-- The check of the items in list order, from position `p` on: the items, or the first failure with its position (R53). -/
def State.checkItems (s : State) : Nat → List Key → List OperatorRequest → Except (ItemFault × Nat) (List OperatorItem)
  | _, _, [] => .ok []
  | p, earlier, r :: rest =>
    match s.checkItem p earlier r with
    | .error e => .error (e, p)
    | .ok i =>
      match s.checkItems (p + 1) (earlier ++ [i.key]) rest with
      | .error e => .error e
      | .ok is => .ok (i :: is)

/-- The form of SET_OPERATOR_ENTRY: a length fixed by the count; a count of 3 or more passes with a payload long enough for
it (section 10.2). -/
def operatorForm (payload : List Byte) : Bool :=
  decide (3 ≤ payload.length)
    && (if byteAt payload 0 ≤ 2 then payload.length == 3 + 8 * byteAt payload 0
        else decide (3 + 8 * byteAt payload 0 ≤ payload.length))

/-- The items replace the operator entry whole, the table takes the operator notice, and the reply carries the version as
that pass leaves it (R54). -/
def State.replaceOperator (items : List OperatorItem) (s : State) : State :=
  let s' := ({ s with si := { s.si with operator := items } } : State).pass none
  s'.respond .ok (beBytes 2 s'.ct.version)

/-- SET_OPERATOR_ENTRY, its form passed (R53, R54). -/
def State.setOperatorEntry (payload : List Byte) (s : State) : State :=
  if !s.commissioned then s.refuse
  else if 2 < byteAt payload 0 then s.outOfRange 1
  else
    match s.checkItems 1 [] (readOperatorItems payload) with
    | .error (.range, p) => s.outOfRange (1 + p)
    | .error (.late, p) => s.respond .late [small p]
    | .ok items =>
      if fieldAt payload 1 2 = s.ct.version then s.replaceOperator items
      else s.respond .versionMismatch (beBytes 2 s.ct.version ++ operatorBytes s.si.operator)

/-- The meaning of SET_OPERATOR_ENTRY (R53, R54). -/
def execSetOperatorEntry (payload : List Byte) (s : State) : Host.Outcome State Fault Refusal :=
  .next (s.takeCommand 4 payload fun s =>
    if operatorForm payload then s.setOperatorEntry payload else s.respond .malformed [])

end Sys2Proof.Machine
end

