-- ==== Sys2Proof/Machine/Bus.lean ====
section
/-! DEFINITION. The Scale Bus Interface (04_the_scale_bus.md): medium access, frames, participation and the cadence. -/

namespace Sys2Proof.Machine

/-! ## Requests (R71) -/

/-- Two requests combined by rank: the higher remains, and of equal ones the pending one (R61, R71). -/
def combine (pending new : Option Cause) : Option Cause :=
  match pending, new with
  | some a, some b => if a.code < b.code then some b else some a
  | some a, none => some a
  | none, b => b

/-- Makes a request (R71). -/
def ScaleBus.ask (c : Cause) (b : ScaleBus) : ScaleBus := { b with request := combine b.request (some c) }

/-- Puts the Scale Bus Interface. -/
def State.putBus (b : ScaleBus) (s : State) : State := { s with sbi := b }

/-! ## Participation (section 4.5) -/

/-- The listen span, in edges: 2 × (P + 1) (R68). -/
def listenSpan (p : Nat) : Nat := 2 * (p + 1)

/-- The cadence period (R72). -/
def ScaleBus.period (b : ScaleBus) (p : Params) : Nat := if b.critical then p.pc + 1 else p.p + 1

/-- The station becomes ACTIVE (R69). -/
def ScaleBus.activate (holdsArmed : Bool) (b : ScaleBus) : ScaleBus :=
  { b with
    participation := .active, request := some .joining, cadence := 0, prompt := false, changedSent := false
    courtesyHold := false, collisionRun := 0, critical := holdsArmed }

/-- The listen span is complete: the count has reached it and the time state is SET (R68). -/
def State.listenComplete (p : Params) (s : State) : Bool :=
  s.sbi.participation == .listening && decide (listenSpan p.p ≤ s.sbi.listenCount) && s.tb.timeState == .set

/-- LISTEN_SPAN_COMPLETE (R69). -/
def State.listenSpanComplete (s : State) : State :=
  match s.params with
  | some p => if s.listenComplete p then s.putBus (s.sbi.activate s.ct.holdsArmed) else s
  | none => s

/-- The station becomes MUTED on a clash (R70). -/
def State.mute (address : Nat) (cause : ClashCause) (s : State) : State :=
  (s.putBus
    { s.sbi with
      participation := .muted, request := none, buffer := none, courtesyHold := false, prompt := false
      critical := false }).raise (.addressClash address cause)

/-! ## The cadence (R72, R74) -/

/-- A PERIODIC request falls due (R72). -/
def ScaleBus.due (p : Params) (b : ScaleBus) : ScaleBus :=
  if b.participation = .active ∧ b.period p ≤ b.cadence then { b.ask .periodic with cadence := 0 } else b

/-- The cadence advance of an ACTIVE station at an edge: the prompt is served, or the count rises and the request falls due.
An arming notice of the same edge taken before it leaves the count at 0 (R72, R74). -/
def ScaleBus.advance (p : Params) (armedAtEdge : Bool) (b : ScaleBus) : ScaleBus :=
  if b.prompt then { b.ask .periodic with cadence := 0, prompt := false }
  else if armedAtEdge then b
  else { b with cadence := upTo 16 b.cadence }.due p

/-- CADENCE_PERIOD_DUE (R72; log 6). -/
def State.cadenceDue (s : State) : State :=
  match s.params with
  | some p => s.putBus (s.sbi.due p)
  | none => s

/-- The Scale Bus Interface's handling of an edge (R66 to R69, R72 to R74). A DORMANT station clears the bus-error flag and
does nothing more (R67); every other clears the CHANGED-sent flag too (R73). -/
def State.busEdge (armedAtEdge : Bool) (s : State) : State :=
  let cleared := s.putBus { s.sbi with busError := false }
  let opened := s.putBus { s.sbi with busError := false, changedSent := false }
  match s.params with
  | none => cleared
  | some p =>
    match s.sbi.participation with
    | .dormant => cleared
    | .muted => opened
    | .listening =>
      (opened.putBus
        { opened.sbi with listenCount := upTo (listenSpan p.p) opened.sbi.listenCount }).listenSpanComplete
    | .active => opened.putBus (opened.sbi.advance p armedAtEdge)

/-! ## Notices from the Candidate Table (R72 to R74) -/

/-- A view notice: a CHANGED request in ACTIVE, and the critical flag refreshed (R72, R73; log 34). -/
def State.viewNotice (s : State) : State :=
  match s.sbi.participation with
  | .active => s.putBus { s.sbi.ask .changed with critical := s.ct.holdsArmed }
  | .listening => s.putBus { s.sbi with critical := s.ct.holdsArmed }
  | .dormant | .muted => s

/-- An arming notice: the cadence restarts, a pending PERIODIC request is withdrawn, the critical flag is set (R74). -/
def State.armingNotice (s : State) : State :=
  match s.sbi.participation with
  | .active =>
    s.putBus
      { s.sbi with
        cadence := 0, request := if s.sbi.request = some .periodic then none else s.sbi.request, critical := true }
  | .listening => s.putBus { s.sbi with critical := true }
  | .dormant | .muted => s

/-- Takes a view notice. -/
def State.takeViewNotice (s : State) : State :=
  if s.mail.view = 0 then s else ({ s with mail := { s.mail with view := s.mail.view - 1 } } : State).viewNotice

/-- Takes an arming notice. -/
def State.takeArmingNotice (s : State) : State :=
  if s.mail.arming = 0 then s else ({ s with mail := { s.mail with arming := s.mail.arming - 1 } } : State).armingNotice

/-! ## The pair and transmission (sections 4.1 to 4.3) -/

/-- The start of a frame of another station (R57, R59); while a reset holds the frame is not received (R75; log 22). -/
def State.frameStart (s : State) : State :=
  if s.sbi.pair = .quiet then s.putBus { s.sbi with pair := if s.held then .unheard else .frame, ended := .noFrame } else s

/-- What frame ends, if any, where the quiet comes: what stands on the pair, or, on a pair that is quiet already, the frame that its
quiet instant has ended. -/
def ScaleBus.ending (b : ScaleBus) : FrameEnd :=
  match b.pair with
  | .quiet => b.ended
  | .frame => .heard
  | .own | .unheard => .unreceived

/-- The quiet instant (R57); the station does not hear one while it drives a frame of its own. -/
def State.quietInstant (s : State) : State :=
  if s.sbi.buffer.isSome then s else s.putBus { s.sbi with pair := .quiet, ended := s.sbi.ending }

/-- The frame that the station assembles (R64). -/
def State.assemble (cause : Cause) (address : Nat) (s : State) : ViewFrame :=
  { cause := cause, sender := address, version := s.ct.version, t := s.tb.t, status := s.ss.status
    pulseState := s.tb.pulseState, d := if s.ss.status = .unknown then 0 else s.dNow, entries := s.view.records }

/-- TRANSMIT_START: a ready station whose stagger has passed on a quiet bus begins to drive the pair (R59, R64). -/
def State.transmitStart (waited : Nat) (s : State) : State :=
  match s.params, s.sbi.request with
  | some p, some cause =>
    if s.sbi.ready ∧ s.sbi.pair = .quiet ∧ s.sbi.buffer = none ∧ stagger p.address ≤ waited then
      s.putBus { s.sbi with request := none, buffer := some (s.assemble cause p.address), pair := .own, ended := .noFrame }
    else s
  | _, _ => s

/-- A frame completes (R60, R61, R64, R69, R73). -/
def State.completeFrame (f : ViewFrame) (s : State) : State :=
  let s' :=
    s.putBus
      { s.sbi with
        buffer := none, collisionRun := 0, courtesyHold := true, changedSent := s.sbi.changedSent || f.cause == .changed }
  if f.cause = .joining then s'.raise (.joined f.sender f.version) else s'

/-- An attempt is abandoned (R61). -/
def State.abandonFrame (f : ViewFrame) (s : State) : State :=
  let s' :=
    s.putBus
      { s.sbi with
        buffer := none, request := combine s.sbi.request (some f.cause), collisionRun := upTo 8 s.sbi.collisionRun
        pair := .frame }
  if 8 ≤ s'.sbi.collisionRun then s'.mute f.sender .retryLimit else s'

/-- FRAME_COMPLETED: the frame has been read back without a mismatch (R58, R64; log 7). -/
def State.frameCompleted (others : List Level) (s : State) : State :=
  match s.sbi.buffer with
  | none => s
  | some f => if f.readsBack others then s.completeFrame f else s

/-- READ_BACK_MISMATCH: a half-bit has not been read back as it was sent (R58, R61; log 7). -/
def State.readBackMismatch (others : List Level) (s : State) : State :=
  match s.sbi.buffer with
  | none => s
  | some f => if f.readsBack others then s else s.abandonFrame f

/-- COURTESY_SPAN_END: the further quiet has lasted its span (R60). -/
def State.courtesyEnd (quiet : Nat) (s : State) : State :=
  match s.params with
  | some p =>
    if s.sbi.courtesySpan && decide (courtesyQuiet p.address ≤ quiet) then s.putBus { s.sbi with courtesyHold := false }
    else s
  | none => s

/-! ## Reception (section 4.4) -/

/-- A discarded frame (R66). -/
def State.discardFrame (s : State) : State :=
  let n := upTo 65535 s.sbi.discards
  if s.sbi.busError then s.putBus { s.sbi with discards := n }
  else (s.putBus { s.sbi with discards := 0, busError := true }).raise (.busError n)

/-- A JOINING frame of a peer restarts the cadence of an ACTIVE station (R74). -/
def ScaleBus.restart (cause : Cause) (b : ScaleBus) : ScaleBus :=
  if cause = .joining ∧ b.participation = .active then { b with cadence := 0, prompt := true } else b

/-- A frame that passes the checks and bears another station's address (R60, R65, R74). -/
def State.hearPeer (f : ReceivedFrame) (s : State) : State :=
  (s.putBus ({ s.sbi with courtesyHold := false }.restart f.cause)).takeFrame f

/-- A frame that passes the checks and bears the station's own address (R62). -/
def State.hearOwn (address : Nat) (s : State) : State :=
  if s.sbi.participation = .listening ∨ s.sbi.participation = .active then s.mute address .ownAddressHeard else s

/-- A frame that passes the checks (R62, R65). -/
def State.hear (f : ReceivedFrame) (s : State) : State :=
  match s.params with
  | some p => if f.sender = p.address then s.hearOwn p.address else s.hearPeer f
  | none => s.hearPeer f

/-- FRAME_RECEIVED: the frame end, before or after the quiet instant that it is (R57; log 22). While a reset holds nothing is
received, and neither is a frame that began then (R75). A station does not receive its own transmission, neither while it drives it
nor at its frame end after it has completed (R62). -/
def State.receive (bytes : List Byte) (oddBits : Nat) (s : State) : State :=
  if s.sbi.buffer.isSome then s
  else
    let quiet := s.putBus { s.sbi with pair := .quiet, ended := .noFrame }
    if s.held = true ∨ s.sbi.ending = .unreceived then quiet
    else
      match receiveFrame bytes oddBits with
      | none => quiet.discardFrame
      | some f => quiet.hear f

/-! ## The meanings -/

/-- The meaning of FRAME_START_HEARD (R59); what stands on the pair does so while a reset holds and without power too (log 22). -/
def execFrameStartHeard (s : State) : Host.Outcome State Fault Refusal :=
  .next (if s.sbi.buffer.isSome then s else s.frameStart)

/-- The meaning of BUS_QUIET_INSTANT (R57). -/
def execBusQuietInstant (s : State) : Host.Outcome State Fault Refusal := .next s.quietInstant

/-- The meaning of TRANSMIT_START (R59). -/
def execTransmitStart (waited : Nat) (s : State) : Host.Outcome State Fault Refusal :=
  .next (if s.held then s else s.transmitStart waited)

/-- The meaning of FRAME_COMPLETED (R64). -/
def execFrameCompleted (s : State) (others : List Level := []) : Host.Outcome State Fault Refusal :=
  .next (if s.held then s else s.frameCompleted others)

/-- The meaning of READ_BACK_MISMATCH (R61). -/
def execReadBackMismatch (s : State) (others : List Level := []) : Host.Outcome State Fault Refusal :=
  .next (if s.held then s else s.readBackMismatch others)

/-- The meaning of FRAME_RECEIVED (R65). -/
def execFrameReceived (bytes : List Byte) (oddBits : Nat) (s : State) : Host.Outcome State Fault Refusal :=
  .next (s.receive bytes oddBits)

/-- The meaning of COURTESY_SPAN_END (R60). -/
def execCourtesySpanEnd (quiet : Nat) (s : State) : Host.Outcome State Fault Refusal :=
  .next (if s.held then s else s.courtesyEnd quiet)

/-- The meaning of LISTEN_SPAN_COMPLETE (R69; log 6). -/
def execListenSpanComplete (s : State) : Host.Outcome State Fault Refusal :=
  .next (if s.held then s else s.listenSpanComplete)

/-- The meaning of CADENCE_PERIOD_DUE (R72; log 6). -/
def execCadencePeriodDue (s : State) : Host.Outcome State Fault Refusal := .next (if s.held then s else s.cadenceDue)

/-- The meaning of VIEW_NOTICE (R73). -/
def execViewNotice (s : State) : Host.Outcome State Fault Refusal := .next (if s.held then s else s.takeViewNotice)

/-- The meaning of ARMING_NOTICE (R74). -/
def execArmingNotice (s : State) : Host.Outcome State Fault Refusal := .next (if s.held then s else s.takeArmingNotice)

end Sys2Proof.Machine
end

