-- ==== Sys2Proof/Machine/History.lean ====
section
/-! DEFINITION. The History Store (09_the_history_store.md): the scan, appending, verify and voiding, erases, extraction,
READ_HISTORY, and what a reset leaves of an operation in flight. -/

namespace Sys2Proof.Machine

/-! ## Slots and pages (section 9.1) -/

/-- Puts the History Store. -/
def State.putStore (h : HistoryStore) (s : State) : State := { s with hs := h }

/-- The class of slot i of the array (R157). -/
def HistoryStore.classOf (h : HistoryStore) (slot : Nat) : SlotClass := slotClass (h.array.slot slot)

/-- The slots of a page in order (R155). -/
def pageSlots (page : Nat) : List Nat := (List.range 16).map (fun i => 16 * page + i)

/-- The page of a slot is writable from the slot's position (R157). -/
def HistoryStore.writableFrom (h : HistoryStore) (slot : Nat) : Bool :=
  (pageSlots (slot / 16)).all (fun i => decide (i < slot) || h.classOf i == .empty)

/-- The slot after another, in cyclic order (R155). -/
def nextSlot (slot : Nat) : Nat := (slot + 1) % 64

/-- The next sequence after one (R161). -/
def sequenceAfter (n : Nat) : Option Nat := if n < 4294967295 then some (n + 1) else none

/-! ## Gaps, FAILED and INHIBITED (R160, R165 to R167) -/

/-- Raises STORE_GAP for a record lost. -/
def State.raiseGap (cause : GapCause) (lost : Nat) (r : HistoryRecord) (s : State) : State :=
  s.raise (.storeGap cause lost r.kind r.epochT)

/-- Discards the records of a list on entry to FAILED or INHIBITED (R165, R166). -/
def State.discardQueued (cause : GapCause) (lost : List HistoryRecord) (s : State) : State :=
  match lost with
  | [] => s
  | r :: rest => (s.putStore { s.hs with gapFlag := true }).raiseGap cause (rest.length + 1) r

/-- The store goes to FAILED: STORE_FAULT, then the records behind the head are discarded (R165; log 43). -/
def State.enterFailed (cause : StoreFaultCause) (s : State) : State :=
  ((s.putStore { s.hs with state := .failed, queue := [], gapFlag := false, operation := .noOperation }).raise
    (.storeFault cause)).discardQueued .failed (s.hs.queue.drop 1)

/-- The store goes to INHIBITED: every record still queued is discarded (R166). -/
def State.enterInhibited (s : State) : State :=
  (s.putStore
    { s.hs with
      state := .inhibited, inhibitPending := false, queue := [], gapFlag := false
      operation := .noOperation }).discardQueued .inhibited s.hs.queue

/-! ## Writing (R160, R161) -/

/-- Begins the write of the head record, if there is one (R161). -/
def State.beginWrite (s : State) : State :=
  match s.hs.queue with
  | [] => s.putStore { s.hs with state := .idle, operation := .noOperation }
  | r :: _ =>
    match s.hs.nextSequence with
    | none => s.enterFailed (.sequence s.hs.pointer)
    | some n =>
      if s.hs.writableFrom s.hs.pointer then
        s.putStore
          { s.hs with state := .programming, operation := .program (r.slotBytes n) n, nextSequence := sequenceAfter n }
      else s.putStore { s.hs with state := .erasing, operation := .erase }

/-- What follows a completed write, scan or erase: INHIBITED where inhibit is pending, the head record otherwise (R159, R162,
R164). -/
def State.settleStore (s : State) : State := if s.hs.inhibitPending then s.enterInhibited else s.beginWrite

/-- A record posted in FAILED or INHIBITED (R165, R167). -/
def State.discardPosted (cause : GapCause) (r : HistoryRecord) (s : State) : State :=
  if s.hs.gapFlag then s else (s.putStore { s.hs with gapFlag := true }).raiseGap cause 1 r

/-- A record posted by Scale State (R160, R165, R167). -/
def State.postRecord (s : State) (r : HistoryRecord) : State :=
  match s.hs.state with
  | .failed => s.discardPosted .failed r
  | .inhibited => s.discardPosted .inhibited r
  | .scanning | .idle | .programming | .erasing =>
    if s.hs.queue.length < 4 then
      let s' := s.putStore { s.hs with queue := s.hs.queue ++ [r] }
      if s.hs.state = .idle then s'.beginWrite else s'
    else s.raiseGap .queueFull 1 r

/-! ## The scan (R158, R159) -/

/-- The VALID slots, in slot order. -/
def HistoryStore.validSlots (h : HistoryStore) : List Nat := (List.range 64).filter (fun i => h.classOf i == .valid)

/-- Of two slots, the one with the higher sequence. -/
def HistoryStore.newer (h : HistoryStore) (a : Option Nat) (b : Nat) : Option Nat :=
  match a with
  | none => some b
  | some a => if slotSequence (h.array.slot a) < slotSequence (h.array.slot b) then some b else some a

/-- The slot with the highest sequence. -/
def HistoryStore.newest (h : HistoryStore) (slots : List Nat) : Option Nat := slots.foldl h.newer none

/-- The record may give the scale: its format is 1 and its D after lies within 10..255 (R159). -/
def HistoryStore.givesScale (h : HistoryStore) (slot : Nat) : Bool :=
  let b := h.array.slot slot
  byteAt b 4 == 1 && decide (10 ≤ byteAt b 12)

/-- The scale record (R159). -/
def HistoryStore.scaleSlot (h : HistoryStore) : Option Nat := h.newest (h.validSlots.filter h.givesScale)

/-- The write pointer after the scan: past the last non-EMPTY slot of the newest record's page (R159). -/
def HistoryStore.scanPointer (h : HistoryStore) : Nat :=
  match h.newest h.validSlots with
  | none => 0
  | some slot =>
    match ((pageSlots (slot / 16)).filter (fun i => h.classOf i != .empty)).getLast? with
    | some last => nextSlot last
    | none => nextSlot slot

/-- The next sequence after the scan (R159). -/
def HistoryStore.scanSequence (h : HistoryStore) : Option Nat :=
  match h.newest h.validSlots with
  | none => some 1
  | some slot => sequenceAfter (slotSequence (h.array.slot slot))

/-- A zone offset taken from a record: 0 where the product lies outside the range (R121). -/
def zoneFromStore (minutes : Int) : Int := if -720 ≤ minutes ∧ minutes ≤ 840 then minutes else 0

/-- Gives the three scale notices, each with the D and the status now held (R122, R133). -/
def State.giveScale (ofEdge : Bool) (s : State) : State :=
  let notice : ScaleNotice := { d := s.ss.d, status := s.ss.status, ofEdge := ofEdge }
  { s with
    mail :=
      { s.mail with
        candidateScale := s.mail.candidateScale ++ [notice], sourceScale := s.mail.sourceScale ++ [notice]
        peerTableScale := s.mail.peerTableScale ++ [notice] } }

/-- Scale State takes the result of the scan (R122). -/
def State.takeScan (result : Option (List Byte)) (s : State) : State :=
  match result with
  | none => s
  | some b =>
    ({ s with
        ss :=
          { s.ss with
            d := some (byteAt b 12), status := .stored, zones := (slotZones b).map zoneFromStore
            zonesFromStore := true } } : State).giveScale false

/-- SCAN_END (R159). -/
def State.scanEnd (s : State) : State :=
  if s.hs.state = .scanning then
    ((s.putStore { s.hs with pointer := s.hs.scanPointer, nextSequence := s.hs.scanSequence }).takeScan
      (s.hs.scaleSlot.map (fun i => s.hs.array.slot i))).settleStore
  else s

/-! ## The ends of the operations (R162 to R164) -/

/-- What the cells of a slot read after a program: bits can only fall (R155; log 24). -/
def cellsAfter (old readBack : List Byte) : List Byte :=
  (List.range 20).map (fun i => old.getD i erasedByte &&& readBack.getD i erasedByte)

/-- A verified program (R162). -/
def State.verified (cells : List Byte) (s : State) : State :=
  (s.putStore
    { s.hs with
      array := s.hs.array.writeBytes (20 * s.hs.pointer) cells, pointer := nextSlot s.hs.pointer
      queue := s.hs.queue.drop 1, failureRun := 0 }).settleStore

/-- PROGRAM_COMPLETE: the read-back (R162, R163). -/
def State.programComplete (readBack : List Byte) (s : State) : State :=
  match s.hs.operation with
  | .program bytes sequence =>
    let cells := cellsAfter (s.hs.array.slot s.hs.pointer) readBack
    if cells = bytes then s.verified cells else s.putStore { s.hs with operation := .voiding cells sequence }
  | .noOperation | .voiding _ _ | .erase => s

/-- A slot voided: its complete marker programmed to 0x00 (R163). -/
def voided (cells : List Byte) : List Byte := cells.take 19 ++ [0]

/-- VOID_COMPLETE (R163). -/
def State.voidComplete (s : State) : State :=
  match s.hs.operation with
  | .voiding cells sequence =>
    let slot := s.hs.pointer
    let s' :=
      s.putStore
        { s.hs with array := s.hs.array.writeBytes (20 * slot) (voided cells), pointer := nextSlot slot }
    if s.hs.inhibitPending then s'.enterInhibited
    else if s.hs.failureRun = 0 then (s'.putStore { s'.hs with failureRun := 1 }).beginWrite
    else s'.enterFailed (.verify slot sequence)
  | .noOperation | .program _ _ | .erase => s

/-- A slot of a page whose erase failed its check or was cut short: bits that the erase has raised, over what they read before. No
such slot is VALID unless it still holds its record (R157, R169; logs 23, 24). -/
def partErased (old raised : List Byte) : List Byte :=
  let left := (List.range 20).map (fun i => old.getD i erasedByte ||| raised.getD i erasedByte)
  if slotClass left = .valid then old else left

/-- What a page reads after an erase, from the bytes that the erase was to raise: erased beyond the end of the operand (R155,
R164; log 24). -/
def pageAfter (m : Memory) (page : Nat) (readBack : List Byte) : List Byte :=
  (pageSlots page).flatMap (fun i => partErased (m.slot i) ((readBack.drop (20 * (i % 16))).take 20))

/-- ERASE_COMPLETE (R164). -/
def State.eraseComplete (readBack : List Byte) (s : State) : State :=
  match s.hs.operation with
  | .erase =>
    let page := s.hs.pointer / 16
    let cells := pageAfter s.hs.array page readBack
    let s' := s.putStore { s.hs with array := s.hs.array.writeBytes (320 * page) cells }
    if cells.all (fun b => b == erasedByte) then (s'.putStore { s'.hs with eraseRun := 0 }).settleStore
    else if s.hs.inhibitPending then s'.enterInhibited
    else if s.hs.eraseRun = 0 then s'.putStore { s'.hs with eraseRun := 1 }
    else s'.enterFailed (.erase page)
  | .noOperation | .program _ _ | .voiding _ _ => s

/-! ## What a reset leaves of an operation (R169; log 23) -/

/-- A byte whose program was cut short: some of the bits that it is to turn from 1 to 0 are (R155). -/
def partProgrammed (old byte free : Byte) : Byte := old &&& (byte ||| free)

/-- A slot whose program was cut short. Every byte but the marker is programmed before the marker is (R156), so the program stops
among those bytes, the marker untouched, or in the marker, all of those programmed; which, by the free byte 20. -/
def partSlot (old bytes : List Byte) (free : Nat → Byte) : List Byte :=
  let cells (free : Nat → Byte) : List Byte :=
    (List.range 19).map (fun i => partProgrammed (old.getD i erasedByte) (bytes.getD i 0) (free i))
  let marker : Byte := old.getD 19 erasedByte
  if free 20 = 0 then cells free ++ [marker]
  else cells (fun _ => 0) ++ [partProgrammed marker completeMarker (free 19)]

/-- A slot whose program a reset cut short: TORN (R169). -/
def tornSlot (old bytes : List Byte) (free : Nat → Byte) : List Byte :=
  let left := partSlot old bytes free
  if slotClass left = .torn then left else bytes.take 19 ++ [erasedByte]

/-- A slot whose voiding a reset cut short: the marker as far cleared as the voiding had reached; TORN or CORRUPT, never VALID and
never EMPTY. -/
def partVoided (cells : List Byte) (free : Nat → Byte) : List Byte :=
  let left := cells.take 19 ++ [cells.getD 19 0 &&& free 19]
  if slotClass left = .torn ∨ slotClass left = .corrupt then left else voided cells

/-- A page whose erase a reset cut short: not every byte reads erased. -/
def partErasedPage (m : Memory) (page : Nat) (free : Nat → Byte) : List Byte :=
  let left := pageAfter m page ((List.range 320).map free)
  if left.all (fun b => b == erasedByte) then m.page page else left

/-- The array as a reset leaves it (R169). -/
def HistoryStore.stopped (h : HistoryStore) (free : Nat → Byte) : Memory :=
  match h.operation with
  | .noOperation => h.array
  | .program bytes _ => h.array.writeBytes (20 * h.pointer) (tornSlot (h.array.slot h.pointer) bytes free)
  | .voiding cells _ => h.array.writeBytes (20 * h.pointer) (partVoided cells free)
  | .erase => h.array.writeBytes (320 * (h.pointer / 16)) (partErasedPage h.array (h.pointer / 16) free)

/-- A reset stops the operation in flight (R169, R181). -/
def State.stopStore (s : State) : State :=
  { s with
    hs := { s.hs with array := s.hs.stopped (Config.residue s.free), operation := .noOperation }
    free := s.free + 1 }

/-! ## PREPARE_EXTRACTION and READ_HISTORY (R166, R168) -/

/-- The effect of PREPARE_EXTRACTION (R166). -/
def State.prepareExtraction (s : State) : State :=
  match s.hs.state with
  | .idle => s.enterInhibited
  | .scanning | .programming | .erasing => s.putStore { s.hs with inhibitPending := true }
  | .inhibited | .failed => s

/-- The meaning of PREPARE_EXTRACTION (R166). -/
def execPrepareExtraction (payload : List Byte) (s : State) : Host.Outcome State Fault Refusal :=
  .next (s.takeCommand 12 payload fun s =>
    if payload = [] then
      let s' := s.prepareExtraction
      s'.respond .ok [small s'.hs.state.code]
    else s.respond .malformed [])

/-- The fields of a slot that is not EMPTY, as they read (R168; log 26). -/
def slotReply (b : List Byte) : List Byte :=
  b.take 11
    ++ (if byteAt b 5 = 4 then signedBytes 2 (15 * signedOf 1 (byteAt b 11)) else [b.getD 11 0])
    ++ [b.getD 12 0] ++ (slotZones b).flatMap (signedBytes 2) ++ b.drop 17

/-- The reply of READ_HISTORY: the slot's fields, which an EMPTY slot lacks, after the byte that tells whether they are present
(R168, R189), and an EXHAUSTED sequence sent as 0 (log 26). -/
def State.historyReply (slot : Nat) (s : State) : List Byte :=
  let b := s.hs.array.slot slot
  [small (slotClass b).code] ++ optionalField slotReply (if slotClass b = .empty then none else some b)
    ++ [small s.hs.state.code, small s.hs.pointer] ++ beBytes 4 (s.hs.nextSequence.getD 0)

/-- The meaning of READ_HISTORY (R168, R172). -/
def execReadHistory (payload : List Byte) (s : State) : Host.Outcome State Fault Refusal :=
  .next (s.takeCommand 10 payload fun s =>
    if payload.length ≠ 1 then s.respond .malformed []
    else if s.hs.state = .scanning then s.respond .busy []
    else if 63 < byteAt payload 0 then s.outOfRange 1
    else s.respond .ok (s.historyReply (byteAt payload 0)))

/-! ## The meanings of the store's own commands -/

/-- The end of an operation, unless a reset holds; the array has no slot above 63 (R155). -/
def State.storeStep (act : State → State) (s : State) : Host.Outcome State Fault Refusal :=
  if s.held then .next s else if 63 < s.hs.pointer then .fault (.noSuchSlot s.hs.pointer) else .next (act s)

/-- The meaning of SCAN_END (R159). -/
def execScanEnd (s : State) : Host.Outcome State Fault Refusal := .next (if s.held then s else s.scanEnd)

/-- The meaning of PROGRAM_COMPLETE (R162). -/
def execProgramComplete (readBack : List Byte) (s : State) : Host.Outcome State Fault Refusal :=
  s.storeStep (State.programComplete readBack)

/-- The meaning of VOID_COMPLETE (R163). -/
def execVoidComplete (s : State) : Host.Outcome State Fault Refusal := s.storeStep State.voidComplete

/-- The meaning of ERASE_COMPLETE (R164). -/
def execEraseComplete (readBack : List Byte) (s : State) : Host.Outcome State Fault Refusal :=
  s.storeStep (State.eraseComplete readBack)

end Sys2Proof.Machine
end

