-- ==== Sys2Proof/Machine/Control.lean ====
section
/-! DEFINITION. Commissioning, the status, the event queue and the resets
(10_control_port_commissioning_and_events.md, sections 10.2 to 10.5). -/

namespace Sys2Proof.Machine

/-! ## COMMISSION (R173, R174) -/

/-- A count lies in a range. -/
def within (low high n : Nat) : Bool := decide (low ≤ n) && decide (n ≤ high)

/-- The checks of fields 1 to 12, with their indices (Table 10-2, R173). -/
def CommissionRequest.fieldChecks (r : CommissionRequest) : List (Nat × Bool) :=
  let p := r.params
  [(1, within 0 31 p.address), (2, within 1 8 p.qmin), (3, within 1 48 p.hd), (4, within 60 86400 p.ha),
    (5, within 0 15 p.p), (6, within 0 15 p.pc), (7, within 3 120 p.peerTimeout && decide (p.p + 1 < p.peerTimeout)),
    (8, within 2 255 p.sourceTimeout), (9, within 1 8 p.nd), (10, within 10 600 p.yieldDelay), (11, within 1 50000 p.tau),
    (12, within 0 8 r.laneCount)]

/-- The checks of lane i, which is in use (Table 10-2, R173). -/
def LaneRequest.checks (ha i : Nat) (l : LaneRequest) : List (Nat × Bool) :=
  let kind := LaneKind.ofCode l.kindCode
  [(13 + 4 * i, kind.isSome), (14 + 4 * i, kind != some .localTime || within 0 3 l.zone), (15 + 4 * i, within 0 48 l.lead),
    (16 + 4 * i, kind != some .smear || within 60 ha l.window)]

/-- The checks of the lanes in use, in order. -/
def laneChecks (ha : Nat) : Nat → List LaneRequest → List (Nat × Bool)
  | _, [] => []
  | i, l :: rest => l.checks ha i ++ laneChecks ha (i + 1) rest

/-- The checks of the initial zone offsets, which are always made (R173). -/
def zoneChecks : Nat → List Int → List (Nat × Bool)
  | _, [] => []
  | i, u :: rest => (i, decide (-48 ≤ u) && decide (u ≤ 56)) :: zoneChecks (i + 1) rest

/-- The first field that fails, if any (R173). -/
def CommissionRequest.failure (r : CommissionRequest) : Option Nat :=
  ((r.fieldChecks ++ laneChecks r.params.ha 0 (r.lanes.take r.laneCount) ++ zoneChecks 45 r.zoneUnits).find?
    (fun c => !c.2)).map (·.1)

/-- The profile of a lane in use (R138). -/
def LaneRequest.profile (l : LaneRequest) : LaneProfile :=
  let kind := (LaneKind.ofCode l.kindCode).getD .tai
  { kind := kind, zone := if kind = .localTime then some l.zone else none, lead := l.lead
    window := if kind = .smear then some l.window else none }

/-- The acceptance: every block takes its parameters in one step (R174). -/
def State.acceptCommission (r : CommissionRequest) (s : State) : State :=
  let taken : State :=
    { s with
      params := some r.params
      sbi := { s.sbi with participation := .listening, listenCount := 0 }
      ss := { s.ss with zones := if s.ss.zonesFromStore then s.ss.zones else r.zoneUnits.map (fun u => 15 * u) }
      ls :=
        { s.ls with
          laneCount := r.laneCount, profiles := (r.lanes.take r.laneCount).map LaneRequest.profile } }
  (taken.raise (.commissioned r.params.address r.laneCount)).respond .ok [small r.params.address, small r.laneCount]

/-- COMMISSION, its form passed: the participation, the store, the fields (R172, R173). -/
def State.commission (r : CommissionRequest) (s : State) : State :=
  if s.sbi.participation ≠ .dormant then s.refuse
  else if s.hs.state = .scanning then s.respond .busy []
  else
    match r.failure with
    | some index => s.outOfRange index
    | none => s.acceptCommission r

/-- The meaning of COMMISSION (R173, R174); its payload has 77 bytes (R189). -/
def execCommission (payload : List Byte) (s : State) : Host.Outcome State Fault Refusal :=
  .next (s.takeCommand 1 payload fun s =>
    if payload.length = 77 then s.commission (readCommission payload) else s.respond .malformed [])

/-! ## READ_STATUS (R175) -/

/-- The reply of READ_STATUS. The pulse state is the one that the most recent edge left (log 45). -/
def State.statusReply (s : State) : List Byte :=
  [small s.sbi.participation.code] ++ optionalField (fun p : Params => [small p.address]) s.params
    ++ [small s.tb.timeState.code, small s.tb.edgePulse.code] ++ beBytes 4 s.tb.t ++ [flagByte s.tb.pendingLoad.isSome]
    ++ [small (s.ss.d.getD 0), small s.ss.status.code] ++ s.ss.zones.flatMap (signedBytes 2) ++ beBytes 2 s.ct.version
    ++ [small s.hs.state.code, small s.cp.resetCause.code, small s.cp.queue.length, small s.cp.overflow]

/-- The meaning of READ_STATUS (R175). -/
def execReadStatus (payload : List Byte) (s : State) : Host.Outcome State Fault Refusal :=
  .next (s.takeCommand 5 payload fun s =>
    if payload = [] then s.respond .ok s.statusReply else s.respond .malformed [])

/-! ## READ_EVENT (R180) -/

/-- The oldest record and the overflow count are placed in the reply; an empty queue gives a count of 0 alone. -/
def State.readEvent (s : State) : State :=
  match s.cp.queue with
  | [] => s.respond .ok [0]
  | r :: _ => ({ s with cp := { s.cp with eventRead := .head } } : State).respond .ok (small s.cp.overflow :: r.bytes)

/-- The meaning of READ_EVENT (R180). -/
def execReadEvent (payload : List Byte) (s : State) : Host.Outcome State Fault Refusal :=
  .next (s.takeCommand 11 payload fun s => if payload = [] then s.readEvent else s.respond .malformed [])

/-- EVENT_RESPONSE_COMPLETE: the record read leaves the queue, unless it has been displaced meanwhile, and the overflow count
becomes 0 (R180). -/
def ControlPort.eventDone (cp : ControlPort) : ControlPort :=
  match cp.eventRead with
  | .noRecord => cp
  | .head => { cp with queue := cp.queue.drop 1, overflow := 0, eventRead := .noRecord }
  | .displaced => { cp with overflow := 0, eventRead := .noRecord }

/-- The meaning of EVENT_RESPONSE_COMPLETE (R180). -/
def execEventResponseComplete (s : State) : Host.Outcome State Fault Refusal :=
  .next (if s.held then s else { s with cp := s.cp.eventDone })

/-! ## RESET and the commands that are none (R172, R176) -/

/-- The meaning of RESET, the command (R176). -/
def execResetCommand (payload : List Byte) (s : State) : Host.Outcome State Fault Refusal :=
  .next (s.takeCommand 13 payload fun s =>
    if payload = [] then ({ s with cp := { s.cp with resetPending := true } } : State).respond .ok []
    else s.respond .malformed [])

/-- The meaning of UNKNOWN_COMMAND (R172). -/
def execUnknownCommand (code : Byte) (payload : List Byte) (s : State) : Host.Outcome State Fault Refusal :=
  .next (s.takeCommand code.toNat payload fun s => s.respond .malformed [])

/-! ## Resets (R181, R182) -/

/-- What stands on the pair once a reset has begun: a frame on it is abandoned, its rest not received (R75). -/
def Pair.abandoned : Pair → Pair
  | .quiet => .quiet
  | .frame | .own | .unheard => .unheard

/-- A frame that has ended as a reset begins, and of which FRAME_RECEIVED has not told yet, is not received either (R75; log 22). -/
def FrameEnd.abandoned : FrameEnd → FrameEnd
  | .noFrame => .noFrame
  | .heard | .unreceived => .unreceived

/-- A reset begins: every operation in flight stops, the transaction is abandoned and the cause is written (R181, R182). -/
def State.beginReset (cause : ResetCause) (s : State) : State :=
  let stopped := s.stopStore
  { stopped with
    sbi := { stopped.sbi with buffer := none, pair := stopped.sbi.pair.abandoned, ended := stopped.sbi.ended.abandoned }
    ls := { stopped.ls with stream := .idle }
    cp := { stopped.cp.endTransaction with resetPending := false, resetCause := cause }
    held := true }

/-- POWER_ON_RESET: power is applied. -/
def State.powerOn (s : State) : State := { s.beginReset .power with powered := true }

/-- PIN_RESET: RESET_N falls; it begins a reset of a part that has power. -/
def State.pinReset (s : State) : State := if s.powered then s.beginReset .pin else s

/-- POWER_FAILURE: the supply is lost; the part stays in reset until power is applied and the reset then ends (log 29). -/
def State.powerFail (s : State) : State := { s.beginReset .power with powered := false }

/-- RESET_END: the last of the merged resets ends (R181). -/
def State.endReset (s : State) : State := if s.held && s.powered then s.afterReset else s

/-- TRANSACTION_END: HCS_N rises (R171); after a RESET the command reset begins (R176). -/
def State.endTransaction (s : State) : State :=
  if s.held then s
  else if s.cp.resetPending then s.beginReset .command
  else { s with cp := s.cp.endTransaction }

/-- The meaning of TRANSACTION_END (R171, R176). -/
def execTransactionEnd (s : State) : Host.Outcome State Fault Refusal := .next s.endTransaction

/-- The meaning of POWER_ON_RESET (R181). -/
def execPowerOnReset (s : State) : Host.Outcome State Fault Refusal := .next s.powerOn

/-- The meaning of PIN_RESET (R181). -/
def execPinReset (s : State) : Host.Outcome State Fault Refusal := .next s.pinReset

/-- The meaning of RESET_END (R182). -/
def execResetEnd (s : State) : Host.Outcome State Fault Refusal := .next s.endReset

/-- The meaning of POWER_FAILURE (R182). -/
def execPowerFailure (s : State) : Host.Outcome State Fault Refusal := .next s.powerFail

end Sys2Proof.Machine
end

