-- ==== Sys2Proof/Machine/Lanes.lean ====
section
/-! DEFINITION. The Lane Stamp Generator (08_lane_stamps.md): smear records, the stamps of a second, READ_STAMP. -/

namespace Sys2Proof.Machine

/-! ## Smear records (section 8.5) -/

/-- A smear record taken for a leap: none where the effective window is below 2 (R147). -/
def takeSmear (key : Key) (baseD : Nat) (x t w : Int) : Option Smear :=
  let t0 := max (x - w) t
  if x - t0 < 2 then none else some { key := key, baseD := baseD, x := x, t0 := t0, width := x - t0 }

/-- The first ARMED leap in table order whose window end lies after the notice's T, as a smear record (R150). -/
def retakeSmear (reading : List Candidate) (n : SecondNotice) (w : Nat) : Option Smear :=
  match n.d with
  | none => none
  | some d =>
    match reading.find? (fun r => r.state == .armed && r.key.isLeap && decide ((n.t : Int) < r.key.windowEnd d)) with
    | some r => takeSmear r.key d (r.key.windowEnd d) n.t w
    | none => none

/-- The notice lists the key as applied, void or not. -/
def SecondNotice.lists (n : SecondNotice) (key : Key) : Bool := n.applied.any (fun a => a.key == key)

/-- The notice lists the key as void. -/
def SecondNotice.listsVoid (n : SecondNotice) (key : Key) : Bool := n.applied.any (fun a => a.key == key && a.void)

/-- The check of a lane's smear record at a second notice (R149). Across a step a record is taken anew, from a lane that held none
too (R150). -/
def checkSmear (reading : List Candidate) (n : SecondNotice) (w : Nat) (held : Option Smear) : Option Smear :=
  match n.load, held with
  | .stepped _, _ => retakeSmear reading n w
  | .noLoad, none | .set, none => none
  | .noLoad, some r | .set, some r =>
    if n.listsVoid r.key then none
    else if r.x ≤ (n.t : Int) then none
    else if n.d ≠ some r.baseD ∧ ¬ n.lists r.key then retakeSmear reading n w
    else some r

/-- The lane steps at an applied leap: it held no record for it when the notice arrived, or dropped it as void (R151). -/
def stepsAtLeap (n : SecondNotice) (held : Option Smear) : Bool :=
  n.applied.any fun a => a.key.isLeap && (held.map (·.key) != some a.key || a.void)

/-- The record is SMEARING at a T (R148). -/
def Smear.smearing (r : Smear) (t : Nat) : Bool := decide (r.t0 < (t : Int)) && decide ((t : Int) < r.x)

/-- The elapsed fraction of the window in nanoseconds, rounded half up (R148). -/
def Smear.nanoseconds (r : Smear) (t : Nat) : Int := (((t : Int) - r.t0) * 1000000000 + r.width / 2) / r.width

/-- The whole count and the correction of a smeared second (R148). -/
def Smear.reading (r : Smear) (t : Nat) : Int × Nat :=
  let ns := r.nanoseconds t
  if r.key.kind = .leapInsert then
    if ns = 0 then (utcLabel t r.baseD, 0) else (utcLabel t r.baseD - 1, (1000000000 - ns).toNat)
  else (utcLabel t r.baseD, ns.toNat)

/-! ## Indicators (section 8.4) -/

/-- The record that decides an indicator: an ARMED one before an ACCEPTED one, the first in table order (R145, R146). -/
def firstByState (records : List Candidate) : Option Candidate :=
  match records.find? (fun r => r.state == .armed) with
  | some r => some r
  | none => records.find? (fun r => r.state == .accepted)

/-- T has reached the lead before a window end (R145, R146). -/
def leadReached (lead : Nat) (x : Int) (t : Nat) : Bool := decide (x - lead * 3600 ≤ (t : Int))

/-- The leap indicator of a lane other than SMEAR, for a stamp that shows indicators (R145). -/
def leapIndicator (reading : List Candidate) (n : SecondNotice) (lead : Nat) : LeapIndicator :=
  if lead = 0 then .noLeap
  else
    let ahead :=
      match n.d with
      | some d =>
        reading.filter fun r =>
          r.key.isLeap && leadReached lead (r.key.windowEnd d) n.t && decide ((n.t : Int) < r.key.windowEnd d)
      | none => []
    match firstByState ahead with
    | some r => if r.key.kind = .leapInsert then .insert else .delete
    | none => if n.marker then .insert else .noLeap

/-- The direction of a shift to a value from an offset (R146). -/
def shiftDirection (value offset : Int) : ShiftIndicator :=
  if offset < value then .forward else if value < offset then .backward else .noShift

/-- The shift indicator of a LOCAL lane, for a stamp that shows indicators (R146). -/
def shiftIndicator (reading : List Candidate) (n : SecondNotice) (lead zone : Nat) : ShiftIndicator :=
  if lead = 0 then .noShift
  else
    let ahead :=
      match n.d with
      | some d =>
        reading.filter fun r =>
          r.key.kind == .localShift && r.key.target == .zone zone && leadReached lead (r.key.windowEnd d) n.t
            && (r.state == .armed || decide ((n.t : Int) < r.key.windowEnd d))
      | none => []
    match firstByState ahead with
    | some r => shiftDirection (r.key.value.getD 0) (n.zones.getD zone 0)
    | none => .noShift

/-! ## Stamps (sections 8.2 and 8.3) -/

/-- The zone of a lane's profile; 0 where it has none. -/
def LaneProfile.zoneIndex (p : LaneProfile) : Nat := p.zone.getD 0

/-- The lane's label count and correction (R140, R148). A SMEAR lane whose record stands but is not SMEARING counts with the base D
(R2, R148); the notice's D is another only where the record's own leap is in the applied list (log 50). -/
def laneLabel (n : SecondNotice) (p : LaneProfile) (smear : Option Smear) : Int × Nat :=
  let d := n.d.getD 10
  match p.kind with
  | .tai => (taiLabel n.t, 0)
  | .utc => (utcLabel n.t d, 0)
  | .localTime => (localLabel n.t d (n.zones.getD p.zoneIndex 0), 0)
  | .smear =>
    match smear with
    | some r => if r.smearing n.t then r.reading n.t else (utcLabel n.t r.baseD, 0)
    | none => (utcLabel n.t d, 0)

/-- The second is stepped on the lane (R144). -/
def steppedOn (n : SecondNotice) (p : LaneProfile) (atLeap : Bool) : Bool :=
  match p.kind with
  | .tai => (match n.load with | .stepped _ => true | .noLoad | .set => false)
  | .utc => n.utcStep
  | .localTime => n.utcStep || n.zoneSteps.getD p.zoneIndex false
  | .smear => n.utcStep || atLeap

/-- The second is the inserted one or the first after an applied deletion (R142). -/
def leapSecond (n : SecondNotice) : Bool := n.marker || n.applied.any (fun a => a.key.kind == .leapDelete && !a.void)

/-- The stamp kind (R142). -/
def stampKind (n : SecondNotice) (p : LaneProfile) (smear : Option Smear) (atLeap : Bool) : StampKind :=
  if n.status = .unknown ∧ p.kind ≠ .tai then .unscaled
  else if !inCalendar (laneLabel n p smear).1 then .outOfRange
  else if steppedOn n p atLeap then .stepped
  else if (p.kind = .utc ∨ p.kind = .localTime) ∧ leapSecond n then .leap
  else if p.kind = .smear ∧ smear.any (fun r => r.smearing n.t) then .smearing
  else .normal

/-- A label count held to the range of the count field (R140). -/
def heldCount (label : Int) : Nat := min 4294967295 label.toNat

/-- The D field (R140): 0 while the scale is UNKNOWN. -/
def laneD (n : SecondNotice) (p : LaneProfile) (smear : Option Smear) : Nat :=
  match p.kind, smear with
  | .smear, some r => r.baseD
  | _, _ => if n.status = .unknown then 0 else n.d.getD 0

/-- The stamp of a lane (R140 to R143). -/
def formStamp (reading : List Candidate) (n : SecondNotice) (lane : Nat) (p : LaneProfile) (smear : Option Smear)
    (atLeap : Bool) : Stamp :=
  let label := laneLabel n p smear
  let inserted := n.marker && (p.kind == .utc || p.kind == .localTime)
  match stampKind n p smear atLeap with
  | .unscaled =>
    { lane := lane, laneKind := p.kind, kind := .unscaled, count := 0, correction := 0, calendar := none, d := 0
      leap := .noLeap, shift := .noShift }
  | .outOfRange =>
    { lane := lane, laneKind := p.kind, kind := .outOfRange, count := heldCount label.1, correction := 0
      calendar := some outOfRangeFields, d := laneD n p smear, leap := .noLeap, shift := .noShift }
  | kind =>
    { lane := lane, laneKind := p.kind, kind := kind, count := heldCount label.1, correction := label.2
      calendar := some (convertLabel label.1 inserted).fields, d := laneD n p smear
      leap := if p.kind = .smear then .noLeap else leapIndicator reading n p.lead
      shift := if p.kind = .localTime then shiftIndicator reading n p.lead p.zoneIndex else .noShift }

/-! ## The second notice (R139) -/

/-- The work of one lane: the check of its smear record, then its stamp, which is plain UTC where the lane steps at a leap
(R139, R149, R151). -/
def LaneStamps.lane (reading : List Candidate) (n : SecondNotice) (ls : LaneStamps) (i : Nat) : LaneStamps :=
  match ls.profiles[i]? with
  | none => ls
  | some p =>
    let held := (ls.smears[i]?).join
    let checked := if p.kind = .smear then checkSmear reading n (p.window.getD 0) held else held
    let atLeap := p.kind == .smear && stepsAtLeap n held
    let stamp := formStamp reading n i p (if atLeap then none else checked) atLeap
    { ls with smears := ls.smears.set i checked, latest := ls.latest.set i (some { stamp := stamp, t := n.t }) }

/-- The stamps of a second, in lane order; their emission begins (R139, R152). -/
def LaneStamps.form (reading : List Candidate) (n : SecondNotice) (ls : LaneStamps) : LaneStamps :=
  { (List.range ls.laneCount).foldl (LaneStamps.lane reading n) ls with stream := .sending, sent := 0 }

/-- The pass for a scale notice of an edge's work that still waits is complete before a stamp is formed (R139; log 21). -/
def State.passesDone (s : State) : State :=
  s.mail.candidateScale.foldl
    (fun s _ => if s.mail.candidateScale.any (fun n => n.ofEdge) then s.takeCandidateScale else s) s

/-- A second notice (R139). The table is read as the edge pass, or the pass for the scale notice of the same work, has left it. -/
def State.secondNotice (n : SecondNotice) (s : State) : State :=
  if 0 < s.ls.laneCount ∧ n.timeState = .set then
    let s' := if n.scaleGiven then s.passesDone else s
    { s' with ls := s'.ls.form s'.ct.reading n }
  else s

/-- Takes the oldest second notice that waits. -/
def State.takeSecond (s : State) : State :=
  match s.mail.second with
  | [] => s
  | n :: rest => ({ s with mail := { s.mail with second := rest } } : State).secondNotice n

/-! ## The arming notice (R147) -/

/-- One leap named by an arming notice, on one lane (R147). -/
def armLane (a : LaneArming) (baseD : Nat) (leap : ArmedLeap) (ls : LaneStamps) (i : Nat) : LaneStamps :=
  match ls.profiles[i]? with
  | none => ls
  | some p =>
    if p.kind = .smear ∧ leap.key.isLeap then
      { ls with smears := ls.smears.set i (takeSmear leap.key baseD leap.x a.t (p.window.getD 0)) }
    else ls

/-- An arming notice: each leap named is taken by every SMEAR lane in use (R147). -/
def State.laneArming (a : LaneArming) (s : State) : State :=
  match s.ss.d with
  | none => s
  | some d =>
    { s with ls := a.armed.foldl (fun ls leap => (List.range s.ls.laneCount).foldl (armLane a d leap) ls) s.ls }

/-- Takes the oldest arming notice that waits. -/
def State.takeLaneArming (s : State) : State :=
  match s.mail.laneArming with
  | [] => s
  | a :: rest => ({ s with mail := { s.mail with laneArming := rest } } : State).laneArming a

/-! ## READ_STAMP (R153) -/

/-- How far the sending of the second's stamps has come: of what is left, but for the last, some further stamps have been sent, lane
0 first; how many is free (R152; log 20). -/
def LaneStamps.progress (draw : Nat) (ls : LaneStamps) : LaneStamps :=
  if ls.stream = .sending ∧ ls.sent + 1 < ls.laneCount then { ls with sent := ls.sent + draw % (ls.laneCount - ls.sent) }
  else ls

/-- Whether a lane's latest stamp has been sent: in IDLE it has; in SENDING the lanes below the count have, and the last lane's has
not (R152, R153). -/
def LaneStamps.stampSent (lane : Nat) (ls : LaneStamps) : Bool :=
  match ls.stream with
  | .idle => true
  | .sending => decide (lane < ls.sent) && decide (lane + 1 < ls.laneCount)

/-- The reply of READ_STAMP. -/
def State.stampReply (lane : Nat) (s : State) : List Byte :=
  optionalField (fun l : LatestStamp => l.stamp.bytes ++ beBytes 4 l.t ++ [flagByte (s.ls.stampSent lane)])
    (s.ls.latest[lane]?).join

/-- READ_STAMP, its form passed. -/
def State.readStamp (lane : Nat) (s : State) : State :=
  if lane < s.ls.laneCount then
    let s' : State := { s with ls := s.ls.progress (Config.stampsSent s.free).toNat, free := s.free + 1 }
    s'.respond .ok (s'.stampReply lane)
  else s.outOfRange 1

/-- The meaning of READ_STAMP (R153). -/
def execReadStamp (payload : List Byte) (s : State) : Host.Outcome State Fault Refusal :=
  .next (s.takeCommand 9 payload fun s =>
    if payload.length = 1 then s.readStamp (byteAt payload 0) else s.respond .malformed [])

/-! ## The meanings -/

/-- The meaning of SECOND_NOTICE (R139). -/
def execSecondNotice (s : State) : Host.Outcome State Fault Refusal := .next (if s.held then s else s.takeSecond)

/-- The meaning of LANE_ARMING_NOTICE (R147). -/
def execLaneArmingNotice (s : State) : Host.Outcome State Fault Refusal := .next (if s.held then s else s.takeLaneArming)

/-- The meaning of STAMP_STREAM_DONE (R152). -/
def execStampStreamDone (s : State) : Host.Outcome State Fault Refusal :=
  .next (if s.held then s else { s with ls := { s.ls with stream := .idle, sent := 0 } })

end Sys2Proof.Machine
end

