-- ==== Sys2Proof/Machine/Scale.lean ====
section
/-! DEFINITION. Scale State (07_scale_state_and_change_application.md): the work at an edge, acquisition and yield, and the
notices it takes. -/

namespace Sys2Proof.Machine

/-! ## The scale tally (R129) -/

/-- The value the own station stands for: that of more than half of the settled D values offered. -/
def State.ownValue (s : State) : Option Nat :=
  let ds := s.si.offeredDs.filterMap id
  ds.find? (fun v => decide (ds.length < 2 * ds.count v))

/-- The values that stations stand for, each station once. -/
def State.stands (s : State) : List Nat := s.ownValue.toList ++ s.pt.scaleOffer.map (·.2)

/-- Forms the scale tally afresh. -/
def State.formTally (s : State) : State :=
  { s with ss := { s.ss with tally := s.stands.eraseDups.map (fun v => (v, s.stands.count v)) } }

/-- The count of a value in the tally. -/
def ScaleState.countOf (ss : ScaleState) (v : Nat) : Nat := ((ss.tally.find? (fun x => x.1 == v)).map (·.2)).getD 0

/-- The value whose count is at least Qmin and greater than that of every other value, with its count (R130, R131). -/
def ScaleState.leader (ss : ScaleState) (qmin : Nat) : Option (Nat × Nat) :=
  ss.tally.find? (fun x => decide (qmin ≤ x.2) && ss.tally.all (fun y => y.1 == x.1 || decide (y.2 < x.2)))

/-! ## The work of an edge (R123) -/

/-- What the work of an edge gathers besides the state of the scale. -/
structure ScaleWork where
  ss : ScaleState
  /-- The applied-change notices due (R133). -/
  changes : List (ChangeKind × Nat)
  /-- The history records due (R134). -/
  records : List HistoryRecord
  /-- The changes with D after or the zone offset after, and whether they were void (R135). -/
  results : List (Key × Int × Bool)
  /-- The event of an acquisition or a yield (R135). -/
  decided : List Event
  deriving DecidableEq, Repr

/-- The load indication is STEPPED. -/
def LoadIndication.isStepped : LoadIndication → Bool
  | .stepped _ => true
  | .noLoad | .set => false

/-- Steps 1 and 2: the marker, the flags and the applied list (R123). -/
def ScaleState.opened (load : LoadIndication) (ss : ScaleState) : ScaleState :=
  { ss with
    marker := false, utcStep := load.isStepped, zoneSteps := List.replicate 4 load.isStepped, applied := [] }

/-- A record of the whole scale after a step (R134). -/
def ScaleState.record (ss : ScaleState) (kind : HistoryKind) (target : Target) (t : Nat) (value : Int) : HistoryRecord :=
  { kind := kind, target := target, epochT := t, value := value, dAfter := ss.d.getD 0, zones := ss.zones }

/-- The history kind of a change (R134). -/
def ChangeKind.history : ChangeKind → HistoryKind
  | .leapInsert => .leapInsert
  | .leapDelete => .leapDelete
  | .offsetSet => .offsetSet
  | .localShift => .localShift

/-- Adds an applied change to the work (R123, R133 to R135). -/
def ScaleWork.applied (key : Key) (t : Nat) (ss : ScaleState) (value after : Int) (changes : List (ChangeKind × Nat))
    (w : ScaleWork) : ScaleWork :=
  let ss' := { ss with applied := ss.applied ++ [{ key := key, void := false }] }
  { w with
    ss := ss', changes := w.changes ++ changes
    records := w.records ++ [ss'.record key.kind.history key.target t value], results := w.results ++ [(key, after, false)] }

/-- Adds a void change to the work: D, the marker and the flags stay (R126). -/
def ScaleWork.void (key : Key) (w : ScaleWork) : ScaleWork :=
  { w with
    ss := { w.ss with applied := w.ss.applied ++ [{ key := key, void := true }] }
    results := w.results ++ [(key, ((w.ss.d.getD 0 : Nat) : Int), true)] }

/-- The change is late: the edge is STEPPED, or T is past the epoch (R124, R125). -/
def late (load : LoadIndication) (t : Nat) (epoch : Int) : Bool := load.isStepped || decide (epoch < (t : Int))

/-- Applies one due change (R124 to R128). With D absent, which no run reaches, a change of D is void (log 38). -/
def ScaleWork.apply (load : LoadIndication) (t : Nat) (w : ScaleWork) (due : Key × Int) : ScaleWork :=
  let key := due.1
  let ss := w.ss
  match key.kind, ss.d, key.value with
  | .leapInsert, some d, _ =>
    if 255 ≤ d then w.void key
    else
      let ss' :=
        { ss with
          d := some (d + 1), marker := ss.marker || (!load.isStepped && decide ((t : Int) = due.2))
          utcStep := ss.utcStep || late load t due.2 }
      w.applied key t ss' 0 (d + 1 : Nat) [(.leapInsert, d)]
  | .leapDelete, some d, _ =>
    if d ≤ 10 then w.void key
    else
      let ss' := { ss with d := some (d - 1), utcStep := ss.utcStep || late load t due.2 }
      w.applied key t ss' 0 (d - 1 : Nat) [(.leapDelete, d)]
  | .offsetSet, some d, some v =>
    w.applied key t { ss with d := some v.toNat, utcStep := true } v v [(.offsetSet, d)]
  | .localShift, _, some v =>
    let z := key.target.zoneIndex
    w.applied key t { ss with zones := ss.zones.set z v, zoneSteps := ss.zoneSteps.set z true } v v []
  | _, _, _ => w.void key

/-- Step 3: the changes in the order given. -/
def ScaleWork.applyAll (load : LoadIndication) (t : Nat) (due : List (Key × Int)) (w : ScaleWork) : ScaleWork :=
  due.foldl (ScaleWork.apply load t) w

/-- Acquisition of a value (R130). -/
def ScaleWork.acquire (t v count : Nat) (w : ScaleWork) : ScaleWork :=
  let ss := w.ss
  let moved := ss.status == .stored && ss.d != some v
  let ss' :=
    { ss with
      d := some v, status := .confirmed, utcStep := ss.utcStep || moved, marker := ss.marker && !moved
      yieldValue := none, yieldTimer := 0 }
  { w with
    ss := ss'
    records :=
      if ss.status = .unknown ∨ ss.d ≠ some v then w.records ++ [ss'.record .acquired .utc t v] else w.records
    decided := w.decided ++ [.scaleConfirmed v count ss.status] }

/-- The yield to a value (R132). -/
def ScaleWork.yield (t v count : Nat) (w : ScaleWork) : ScaleWork :=
  let ss := w.ss
  let before := ss.d.getD 0
  let ss' := { ss with d := some v, utcStep := true, marker := false, yieldValue := none, yieldTimer := 0 }
  { w with
    ss := ss', records := w.records ++ [ss'.record .yielded .utc t v]
    decided := w.decided ++ [.scaleYielded before v count (ss.countOf before)] }

/-- The yield condition timed at an edge (R131). -/
def ScaleState.timed (v : Nat) (ss : ScaleState) : ScaleState :=
  { ss with yieldValue := some v, yieldTimer := if ss.yieldValue = some v then ss.yieldTimer + 1 else 1 }

/-- The value for which the yield condition holds, with its count (R131). -/
def ScaleState.yieldFor (ss : ScaleState) (qmin : Nat) : Option (Nat × Nat) :=
  match ss.leader qmin with
  | some l => if ss.d = some l.1 then none else some l
  | none => none

/-- Step 4: acquisition or yield, while commissioned (R130, R131). -/
def ScaleWork.decide (params : Option Params) (t : Nat) (w : ScaleWork) : ScaleWork :=
  match params with
  | none => w
  | some p =>
    match w.ss.status with
    | .unknown | .stored =>
      match w.ss.leader p.qmin with
      | some l => w.acquire t l.1 l.2
      | none => { w with ss := { w.ss with yieldValue := none, yieldTimer := 0 } }
    | .confirmed =>
      match w.ss.yieldFor p.qmin with
      | some l =>
        let w' := { w with ss := w.ss.timed l.1 }
        if w'.ss.yieldTimer = p.yieldDelay then w'.yield t l.1 l.2 else w'
      | none => { w with ss := { w.ss with yieldValue := none, yieldTimer := 0 } }

/-- The stepped indication of CHANGE_APPLIED, from the flags at the end of step 3 (R135). -/
def ScaleState.stepped (ss : ScaleState) (key : Key) : Bool :=
  if key.kind = .localShift then ss.zoneSteps.getD key.target.zoneIndex false else ss.utcStep

/-- The CHANGE_APPLIED events (R135), with the state of the scale at the end of step 3. -/
def ScaleWork.changeEvents (w : ScaleWork) : List Event :=
  w.results.map (fun r => .changeApplied r.1 r.2.1 r.2.2 (w.ss.stepped r.1))

/-- The scale notices where D or the status has changed over the work (R133). -/
def State.scaleNotices (ofEdge : Bool) (before : ScaleState) (s : State) : State :=
  if s.ss.d = before.d ∧ s.ss.status = before.status then s else s.giveScale ofEdge

/-- Step 5: the events, the notices, the records (R133 to R135; log 40). -/
def State.giveScaleWork (ofEdge : Bool) (t : Option Nat) (before : ScaleState) (events : List Event) (w : ScaleWork)
    (s : State) : State :=
  let raised := ({ s with ss := w.ss } : State).raiseAllAt t events
  let noticed :=
    ({ raised with mail := { raised.mail with appliedChange := raised.mail.appliedChange ++ w.changes } } : State).scaleNotices
      ofEdge before
  w.records.foldl State.postRecord noticed

/-- Step 6: the second notice (R136). -/
def State.issueSecond (h : HandOver) (scaleGiven : Bool) (s : State) : State :=
  let notice : SecondNotice :=
    { t := h.t, timeState := h.timeState, pulseState := h.pulseState, load := h.load, d := s.ss.d, status := s.ss.status
      zones := s.ss.zones, marker := s.ss.marker, utcStep := s.ss.utcStep, zoneSteps := s.ss.zoneSteps
      applied := s.ss.applied, scaleGiven := scaleGiven }
  { s with mail := { s.mail with second := s.mail.second ++ [notice] } }

/-- The start of the work of an edge (steps 1 and 2). -/
def ScaleState.startWork (load : LoadIndication) (ss : ScaleState) : ScaleWork :=
  { ss := ss.opened load, changes := [], records := [], results := [], decided := [] }

/-- The edge work of Scale State (R123). -/
def State.edgeWork (h : HandOver) (s : State) : State :=
  let applied := (s.ss.startWork h.load).applyAll h.load h.t h.due
  let w := applied.decide s.params h.t
  let t := if h.timeState = .set then some h.t else none
  let s' := s.giveScaleWork true t s.ss (applied.changeEvents ++ w.decided) w
  s'.issueSecond h (w.ss.d != s.ss.d || w.ss.status != s.ss.status)

/-- HAND_OVER: the oldest hand-over that waits (R123). -/
def State.takeHandOver (s : State) : State :=
  match s.mail.handOver with
  | [] => s
  | h :: rest => ({ s with mail := { s.mail with handOver := rest } } : State).edgeWork h

/-- SCALE_YIELDED: a CONFIRMED station whose yield timer stands at the yield delay yields to its yield value (R132; log 6). -/
def State.scaleYield (s : State) : State :=
  match s.params, s.ss.yieldValue with
  | some p, some v =>
    if s.ss.status = .confirmed ∧ s.ss.yieldTimer = p.yieldDelay then
      let w : ScaleWork := { ss := s.ss, changes := [], records := [], results := [], decided := [] }
      let w' := w.yield s.tb.t v (s.ss.countOf v)
      s.giveScaleWork false s.eventT s.ss w'.decided w'
    else s
  | _, _ => s

/-! ## The meanings -/

/-- The meaning of HAND_OVER (R123). -/
def execHandOver (s : State) : Host.Outcome State Fault Refusal := .next (if s.held then s else s.takeHandOver)

/-- The meaning of SCALE_YIELDED (R132). -/
def execScaleYielded (s : State) : Host.Outcome State Fault Refusal := .next (if s.held then s else s.scaleYield)

/-- The meaning of SOURCE_NOTICE (R129). -/
def execSourceNotice (s : State) : Host.Outcome State Fault Refusal :=
  .next
    (if s.held || s.mail.source == 0 then s
    else ({ s with mail := { s.mail with source := s.mail.source - 1 } } : State).formTally)

/-- The meaning of PEER_SCALE_NOTICE (R129). -/
def execPeerScaleNotice (s : State) : Host.Outcome State Fault Refusal :=
  .next
    (if s.held || s.mail.peerScale == 0 then s
    else ({ s with mail := { s.mail with peerScale := s.mail.peerScale - 1 } } : State).formTally)

end Sys2Proof.Machine
end

