-- ==== Sys2Proof/Machine/TimeBase.lean ====
section
/-! DEFINITION. The Time Base (02_the_time_base.md): the second edge, pulses, windows, the flywheel, REFCLK, LOAD_TIME. -/

namespace Sys2Proof.Machine

/-- Puts the Time Base. -/
def State.putTime (b : TimeBase) (s : State) : State := { s with tb := b }

/-! ## The count (R19, R33, R34) -/

/-- T + 1, the value T takes without a load (log 42). -/
def TimeBase.advanced (b : TimeBase) : Nat := (b.t + 1) % Config.countEnd

/-- The Time Base with its new T; at the end of the count a load of 0 is placed where none is pending (R34). -/
def TimeBase.reach (t : Nat) (b : TimeBase) : TimeBase :=
  { b with t := t, pendingLoad := if t = 4294967295 ∧ b.pendingLoad = none then some 0 else b.pendingLoad }

/-- The load indication of an edge (R33). -/
def TimeBase.load (b : TimeBase) : LoadIndication :=
  match b.pendingLoad, b.timeState with
  | none, _ => .noLoad
  | some _, .unset => .set
  | some v, .set => if v = b.t + 1 then .noLoad else .stepped ((v : Int) - (b.t + 1))

/-- The Time Base with T and the time state settled for the new second (R19, R33, R34). -/
def TimeBase.settled (b : TimeBase) : TimeBase :=
  match b.pendingLoad with
  | none => b.reach b.advanced
  | some v => { b with pendingLoad := none, timeState := .set }.reach v

/-- The event of a load (R33). -/
def LoadIndication.events : LoadIndication → List Event
  | .noLoad => []
  | .set => [.timeSet]
  | .stepped delta => [.timeStepped delta]

/-! ## The second edge (R18) -/

/-- The blocks that take the edge from the Time Base (R18). -/
inductive EdgeBlock where
  | sources | peers | bus | candidates
  deriving DecidableEq, Repr

/-- The blocks of a list in the order that a number names (log 5). -/
def orderOf : Nat → List EdgeBlock → Nat → List EdgeBlock
  | 0, _, _ => []
  | left + 1, blocks, n =>
    match blocks[n % (left + 1)]? with
    | some b => b :: orderOf left (blocks.eraseIdx (n % (left + 1))) (n / (left + 1))
    | none => []

/-- The order in which the blocks take an edge: any of the 24, by a number (R117; log 5). -/
def edgeOrderOf (n : Nat) : List EdgeBlock := orderOf 4 [.sources, .peers, .bus, .candidates] n

/-- Repeats a piece of work. -/
def times {α : Type} : Nat → (α → α) → α → α
  | 0, _, a => a
  | n + 1, f, a => times n f (f a)

/-- The Candidate Table takes the notices of Source Intake and of the Peer Table that wait before its edge pass (R117). -/
def State.takeOffers (s : State) : State :=
  let reports := times s.mail.report State.takeReport s
  let operators := times reports.mail.operator State.takeOperator reports
  times operators.mail.peer.length State.takePeer operators

/-- The Scale Bus Interface takes the notices of the Candidate Table that wait before its cadence advance (R72, R74): the view
notices first and then the arming notices, of whichever passes they are, an order that the spec leaves open (log 52). -/
def State.takeTableNotices (s : State) : State :=
  let views := times s.mail.view State.takeViewNotice s
  times views.mail.arming State.takeArmingNotice views

/-- One block's work for an edge. The flag says that the Candidate Table has armed a record in its work for this edge
(R74). -/
def edgeBlock (load : LoadIndication) (r : State × Bool) (block : EdgeBlock) : State × Bool :=
  match block with
  | .sources => (r.1.sourceEdge, r.2)
  | .peers => (r.1.peerEdge load, r.2)
  | .bus => (r.1.takeTableNotices.busEdge r.2, r.2)
  | .candidates =>
    let s := r.1.takeOffers.pass (some load)
    (s, decide (r.1.mail.arming < s.mail.arming))

/-- The edge handed to the blocks in an order (R18). -/
def State.handEdge (load : LoadIndication) (order : List EdgeBlock) (s : State) : State :=
  (order.foldl (edgeBlock load) (s, false)).1

/-- The Time Base at an edge that falls at a tick: the count settled, the tick noted, runts reported afresh, a new hold-off
(R18, R23, R30). -/
def State.openSecond (tick : Nat) (s : State) : State :=
  s.putTime
    { s.tb.settled with
      lastEdge := some tick, runtReported := false, edgePulse := s.tb.pulseState
      holdOff := Config.halfSecond + (Config.holdOff s.free).toNat % (Config.holdOffSpread + 1) }

/-- What each edge clears before the blocks do any work for it: the entry-invalid flag and the table-full flag, so that in the
second that begins each of PEER_ENTRY_INVALID and TABLE_FULL is raised at most once, in whatever order the blocks work (R80, R95,
R96; log 49). -/
def State.edgeFlags (s : State) : State :=
  { s with pt := { s.pt with entryInvalid := false }, ct := { s.ct with tableFull := false } }

/-- The second edge, at a tick, in a given order of the blocks; `events` are the Time Base's own events that go with it, and
follow the load's event TIME_SET or TIME_STEPPED, an order that the spec leaves open (R18, R24, R26, R28, R33, R177; log 51). -/
def State.edgeIn (order : List EdgeBlock) (tick : Nat) (events : List Event) (s : State) : State :=
  let opened := (s.openSecond tick).edgeFlags
  ((({ opened with free := opened.free + 1 } : State).raiseAll (s.tb.load.events ++ events))).handEdge s.tb.load order

/-- The second edge. -/
def State.edge (tick : Nat) (events : List Event) (s : State) : State :=
  s.edgeIn (edgeOrderOf (Config.edgeOrder s.free).toNat) tick events

/-- The transition without an edge: a time-base notice where the pulse state has changed (R18, R91). -/
def State.turn (b : TimeBase) (s : State) : State :=
  if b.pulseState = s.tb.pulseState then s.putTime b
  else { s.putTime b with mail := { s.mail with timeBase := s.mail.timeBase + 1 } }

/-! ## Windows (R20) -/

/-- The pulse tolerance that a window takes when its nominal is set (R20). -/
def State.tolerance (s : State) : Nat :=
  match s.params with
  | some p => p.tau
  | none => Config.dormantTolerance

/-- The ticks of the tolerance in force. -/
def TimeBase.span (b : TimeBase) : Nat := 10 * b.tolerance

/-- The centre of the awaited window. -/
def TimeBase.centre (b : TimeBase) : Nat := b.nominal.getD 0 + Config.ticksPerSecond

/-- The pulse lies in the window, both ends included. -/
def TimeBase.inWindow (b : TimeBase) (stamp : Nat) : Bool :=
  decide (b.centre ≤ stamp + b.span) && decide (stamp ≤ b.centre + b.span)

/-- LOCKED at a pulse, every run 0, the cycle run among them (R21, R26, R28, R31). -/
def TimeBase.lock (stamp tolerance : Nat) (b : TimeBase) : TimeBase :=
  { b with
    pulseState := .locked, nominal := some stamp, tolerance := tolerance, missedRun := 0, relockRun := 0, rephaseRun := 0
    cycleRun := 0, lastStray := none, windowHit := false }

/-- The flywheel edge of the awaited window has not been issued (R25, R26; log 12). -/
def TimeBase.centreOpen (b : TimeBase) : Bool := b.lastEdge.all (fun e => decide (e < b.centre))

/-! ## Pulses (R21 to R28, R30, R31) -/

/-- A runt (R23). -/
def State.runt (s : State) : State :=
  let n := upTo 65535 s.tb.runtCount
  if s.tb.runtReported then s.putTime { s.tb with runtCount := n }
  else (s.putTime { s.tb with runtCount := 0, runtReported := true }).raise (.runtPulse n)

/-- Issues an edge at a pulse or not; without one a changed pulse state is given as a time-base notice (R18). -/
def State.lockAt (issue : Bool) (stamp : Nat) (events : List Event) (b : TimeBase) (s : State) : State :=
  if issue then (s.putTime b).edge stamp events else (s.turn b).raiseAll events

/-- The relock (R26). -/
def State.relock (stamp : Nat) (s : State) : State :=
  s.lockAt s.tb.centreOpen stamp [.relocked ((stamp : Int) - s.tb.centre)] (s.tb.lock stamp s.tolerance)

/-- An in-window pulse in FLYWHEEL (R23, R25, R26). -/
def State.flywheelHit (stamp : Nat) (s : State) : State :=
  if s.tb.windowHit then s.runt
  else
    let s' := s.putTime { s.tb with windowHit := true, relockRun := s.tb.relockRun + 1 }
    if 3 ≤ s'.tb.relockRun then s'.relock stamp else s'

/-- A stray pulse lies a second after the last one, within the tolerance (R27). -/
def TimeBase.aSecondAfter (b : TimeBase) (stamp : Nat) : Bool :=
  match b.lastStray with
  | some last =>
    decide (last + Config.ticksPerSecond ≤ stamp + b.span) && decide (stamp ≤ last + Config.ticksPerSecond + b.span)
  | none => false

/-- The shift of a rephase: from the nearest window centre, the earlier of two (R28). -/
def TimeBase.shift (b : TimeBase) (stamp : Nat) : Int :=
  let r := ((stamp : Int) - (b.nominal.getD 0 : Nat)) % (Config.ticksPerSecond : Nat)
  if r ≤ (Config.halfSecond : Nat) then r else r - (Config.ticksPerSecond : Nat)

/-- 500 ms or more have passed since the last edge (R28). -/
def TimeBase.halfSecondPassed (b : TimeBase) (stamp : Nat) : Bool :=
  b.lastEdge.all (fun e => decide (e + Config.halfSecond ≤ stamp))

/-- The rephase (R28). -/
def State.rephase (stamp : Nat) (s : State) : State :=
  s.lockAt (s.tb.halfSecondPassed stamp) stamp [.rephased (s.tb.shift stamp)] (s.tb.lock stamp s.tolerance)

/-- A stray pulse in FLYWHEEL, which is a runt too (R27, R28). -/
def State.stray (stamp : Nat) (s : State) : State :=
  let counted := s.runt
  let run := if s.tb.aSecondAfter stamp then s.tb.rephaseRun + 1 else 1
  let s' := counted.putTime { counted.tb with rephaseRun := run, lastStray := some stamp }
  if 8 ≤ run then s'.rephase stamp else s'

/-- The hold-off has passed (R30). -/
def TimeBase.holdOffPassed (b : TimeBase) (stamp : Nat) : Bool := b.lastEdge.all (fun e => decide (e + b.holdOff ≤ stamp))

/-- A pulse in UNTIMED (R30, R31). -/
def State.untimedPulse (stamp : Nat) (s : State) : State :=
  if s.tb.holdOffPassed stamp then
    if s.tb.clock = .restored then
      (s.putTime { s.tb.lock stamp s.tolerance with clock := .present }).edge stamp []
    else s.edge stamp []
  else s.runt

/-- PPS_PULSE (R20 to R31; log 8). -/
def State.pulse (stamp : Nat) (s : State) : State :=
  match s.tb.pulseState with
  | .seeking => if s.tb.clock = .present then (s.putTime (s.tb.lock stamp s.tolerance)).edge stamp [] else s
  | .locked | .bridging =>
    if s.tb.inWindow stamp then
      (s.putTime
        { s.tb with
          pulseState := .locked, nominal := some stamp, tolerance := s.tolerance, missedRun := 0 }).edge stamp []
    else s.runt
  | .flywheel => if s.tb.inWindow stamp then s.flywheelHit stamp else s.stray stamp
  | .untimed => s.untimedPulse stamp

/-! ## Window closes and flywheel edges (R24, R25) -/

/-- FLYWHEEL_EDGE: the edge at the window centre, where it has not been issued (R25; log 12). -/
def State.flywheelEdge (s : State) : State :=
  if s.tb.pulseState = .flywheel ∧ s.tb.centreOpen then s.edge s.tb.centre [] else s

/-- The awaited window moves on by a second, its tolerance fixed afresh (R20, R24, R25). -/
def State.moveWindow (s : State) : State :=
  s.putTime { s.tb with nominal := some s.tb.centre, tolerance := s.tolerance, windowHit := false }

/-- A window close in LOCKED or BRIDGING (R24). -/
def State.missWindow (s : State) : State :=
  let close := s.tb.centre + s.tb.span
  let missed := s.tb.missedRun + 1
  let moved := s.moveWindow
  if missed < 3 then (moved.putTime { moved.tb with missedRun := missed, pulseState := .bridging }).edge close []
  else
    (moved.putTime
      { moved.tb with
        missedRun := 3, pulseState := .flywheel, relockRun := 0, rephaseRun := 0, lastStray := none }).edge close [.pulseLost]

/-- WINDOW_CLOSE (R24, R25). -/
def State.windowClose (s : State) : State :=
  match s.tb.pulseState with
  | .locked | .bridging => s.missWindow
  | .flywheel =>
    let s' := s.flywheelEdge
    (s'.putTime { s'.tb with relockRun := if s'.tb.windowHit then s'.tb.relockRun else 0 }).moveWindow
  | .seeking | .untimed => s

/-! ## REFCLK (R29, R31) -/

/-- REFCLK_LOST: 5 µs without a cycle (R29; log 10). -/
def State.clockLost (s : State) : State :=
  match s.tb.clock with
  | .present =>
    (s.turn
      { s.tb with
        clock := .lost, cycleRun := 0, pulseState := .untimed, nominal := none, tolerance := Config.dormantTolerance
        missedRun := 0, relockRun := 0, rephaseRun := 0, lastStray := none, windowHit := false }).raise .refclkLost
  | .lost => s.putTime { s.tb with cycleRun := 0 }
  | .restored => (s.putTime { s.tb with clock := .lost, cycleRun := 0 }).raise .refclkLost

/-- REFCLK_RESTORED: further cycles without a gap (R31; log 13). -/
def State.clockCycles (cycles : Nat) (s : State) : State :=
  if s.tb.clock = .lost then
    let run := min 1000 (s.tb.cycleRun + cycles)
    if run = 1000 then (s.putTime { s.tb with cycleRun := run, clock := .restored }).raise .refclkRestored
    else s.putTime { s.tb with cycleRun := run }
  else s

/-! ## LOAD_TIME (R32) -/

/-- LOAD_TIME, its form passed. -/
def State.loadTime (value : Nat) (s : State) : State :=
  if value < Config.calendarLimit then (s.putTime { s.tb with pendingLoad := some value }).respond .ok []
  else s.outOfRange 1

/-- The meaning of LOAD_TIME (R32); its payload has 4 bytes (R189). -/
def execLoadTime (payload : List Byte) (s : State) : Host.Outcome State Fault Refusal :=
  .next (s.takeCommand 2 payload fun s =>
    if payload.length = 4 then s.loadTime (beNat payload) else s.respond .malformed [])

/-! ## The meanings -/

/-- The meaning of PPS_PULSE (R20). -/
def execPpsPulse (stamp : Nat) (s : State) : Host.Outcome State Fault Refusal :=
  .next (if s.held then s else s.pulse stamp)

/-- The meaning of WINDOW_CLOSE (R24). -/
def execWindowClose (s : State) : Host.Outcome State Fault Refusal := .next (if s.held then s else s.windowClose)

/-- The meaning of FLYWHEEL_EDGE (R25). -/
def execFlywheelEdge (s : State) : Host.Outcome State Fault Refusal := .next (if s.held then s else s.flywheelEdge)

/-- The meaning of REFCLK_LOST (R29). -/
def execRefclkLost (s : State) : Host.Outcome State Fault Refusal := .next (if s.held then s else s.clockLost)

/-- The meaning of REFCLK_RESTORED (R31). -/
def execRefclkRestored (cycles : Nat) (s : State) : Host.Outcome State Fault Refusal :=
  .next (if s.held then s else s.clockCycles cycles)

end Sys2Proof.Machine
end

