-- ==== Sys2Proof/Machine/Dispatch.lean ====
section
/-! DEFINITION. The meaning of each command: one arm per constructor of Instr, in the order of the opcode table. -/

namespace Sys2Proof.Machine

def exec (i : Instr) (s : State) : Host.Outcome State Fault Refusal :=
  match i with
  | .transactionBegin select => Sys2Proof.Machine.execTransactionBegin select s
  | .transactionEnd => Sys2Proof.Machine.execTransactionEnd s
  | .commission payload => Sys2Proof.Machine.execCommission payload s
  | .loadTime payload => Sys2Proof.Machine.execLoadTime payload s
  | .observe payload => Sys2Proof.Machine.execObserve payload s
  | .setOperatorEntry payload => Sys2Proof.Machine.execSetOperatorEntry payload s
  | .readStatus payload => Sys2Proof.Machine.execReadStatus payload s
  | .readSources payload => Sys2Proof.Machine.execReadSources payload s
  | .readPeers payload => Sys2Proof.Machine.execReadPeers payload s
  | .readCandidates payload => Sys2Proof.Machine.execReadCandidates payload s
  | .readStamp payload => Sys2Proof.Machine.execReadStamp payload s
  | .readHistory payload => Sys2Proof.Machine.execReadHistory payload s
  | .readEvent payload => Sys2Proof.Machine.execReadEvent payload s
  | .eventResponseComplete => Sys2Proof.Machine.execEventResponseComplete s
  | .prepareExtraction payload => Sys2Proof.Machine.execPrepareExtraction payload s
  | .resetCommand payload => Sys2Proof.Machine.execResetCommand payload s
  | .unknownCommand code payload => Sys2Proof.Machine.execUnknownCommand code payload s
  | .powerOnReset => Sys2Proof.Machine.execPowerOnReset s
  | .pinReset => Sys2Proof.Machine.execPinReset s
  | .resetEnd => Sys2Proof.Machine.execResetEnd s
  | .ppsPulse stamp => Sys2Proof.Machine.execPpsPulse stamp s
  | .windowClose => Sys2Proof.Machine.execWindowClose s
  | .flywheelEdge => Sys2Proof.Machine.execFlywheelEdge s
  | .refclkLost => Sys2Proof.Machine.execRefclkLost s
  | .refclkRestored cycles => Sys2Proof.Machine.execRefclkRestored cycles s
  | .sourceStale source => Sys2Proof.Machine.execSourceStale source s
  | .appliedChangeNotice => Sys2Proof.Machine.execAppliedChangeNotice s
  | .graceExpiry => Sys2Proof.Machine.execGraceExpiry s
  | .sourceScaleNotice => Sys2Proof.Machine.execSourceScaleNotice s
  | .candidateNotice => Sys2Proof.Machine.execCandidateNotice s
  | .peerSilent address => Sys2Proof.Machine.execPeerSilent address s
  | .peerPurge address => Sys2Proof.Machine.execPeerPurge address s
  | .peerTableScaleNotice => Sys2Proof.Machine.execPeerTableScaleNotice s
  | .frameStartHeard => Sys2Proof.Machine.execFrameStartHeard s
  | .busQuietInstant => Sys2Proof.Machine.execBusQuietInstant s
  | .transmitStart waited => Sys2Proof.Machine.execTransmitStart waited s
  | .frameCompleted others => Sys2Proof.Machine.execFrameCompleted s others
  | .readBackMismatch others => Sys2Proof.Machine.execReadBackMismatch s others
  | .frameReceived bytes oddBits => Sys2Proof.Machine.execFrameReceived bytes oddBits s
  | .courtesySpanEnd quiet => Sys2Proof.Machine.execCourtesySpanEnd quiet s
  | .listenSpanComplete => Sys2Proof.Machine.execListenSpanComplete s
  | .cadencePeriodDue => Sys2Proof.Machine.execCadencePeriodDue s
  | .viewNotice => Sys2Proof.Machine.execViewNotice s
  | .armingNotice => Sys2Proof.Machine.execArmingNotice s
  | .reportNotice => Sys2Proof.Machine.execReportNotice s
  | .operatorNotice => Sys2Proof.Machine.execOperatorNotice s
  | .peerNotice => Sys2Proof.Machine.execPeerNotice s
  | .candidateScaleNotice => Sys2Proof.Machine.execCandidateScaleNotice s
  | .timeBaseNotice => Sys2Proof.Machine.execTimeBaseNotice s
  | .handOver => Sys2Proof.Machine.execHandOver s
  | .scaleYielded => Sys2Proof.Machine.execScaleYielded s
  | .sourceNotice => Sys2Proof.Machine.execSourceNotice s
  | .peerScaleNotice => Sys2Proof.Machine.execPeerScaleNotice s
  | .secondNotice => Sys2Proof.Machine.execSecondNotice s
  | .laneArmingNotice => Sys2Proof.Machine.execLaneArmingNotice s
  | .stampStreamDone => Sys2Proof.Machine.execStampStreamDone s
  | .scanEnd => Sys2Proof.Machine.execScanEnd s
  | .programComplete readBack => Sys2Proof.Machine.execProgramComplete readBack s
  | .voidComplete => Sys2Proof.Machine.execVoidComplete s
  | .eraseComplete readBack => Sys2Proof.Machine.execEraseComplete readBack s
  | .powerFailure => Sys2Proof.Machine.execPowerFailure s

end Sys2Proof.Machine
end

