-- ==== Sys2Proof/Safety.lean ====
section
/-! DEFINITION. The terms in which statements about the part are made: what a taken command leaves, what a block's work leaves
with its events and its notices, what the History Store does next, and the laws of the device as properties of a state. -/

namespace Sys2Proof

open Sys2Proof.Machine

/-! ## Kinds of command -/

/-- The code and the payload of a host command, and whether its form is right (R172, Table 11-5); none for the commands that
are no request of the host. -/
def Instr.request : Instr → Option (Nat × List Byte × Bool)
  | .commission p => some (1, p, p.length == 77)
  | .loadTime p => some (2, p, p.length == 4)
  | .observe p => some (3, p, p.length == 12)
  | .setOperatorEntry p => some (4, p, operatorForm p)
  | .readStatus p => some (5, p, p.isEmpty)
  | .readSources p => some (6, p, p.isEmpty)
  | .readPeers p => some (7, p, p.isEmpty)
  | .readCandidates p => some (8, p, p.isEmpty)
  | .readStamp p => some (9, p, p.length == 1)
  | .readHistory p => some (10, p, p.length == 1)
  | .readEvent p => some (11, p, p.isEmpty)
  | .prepareExtraction p => some (12, p, p.isEmpty)
  | .resetCommand p => some (13, p, p.isEmpty)
  | .unknownCommand code p => some (code.toNat, p, false)
  | .transactionBegin _ | .transactionEnd | .eventResponseComplete | .powerOnReset | .pinReset | .resetEnd | .ppsPulse _
  | .windowClose | .flywheelEdge | .refclkLost | .refclkRestored _ | .sourceStale _ | .appliedChangeNotice | .graceExpiry
  | .sourceScaleNotice | .candidateNotice | .peerSilent _ | .peerPurge _ | .peerTableScaleNotice | .frameStartHeard
  | .busQuietInstant | .transmitStart _ | .frameCompleted _ | .readBackMismatch _ | .frameReceived _ _ | .courtesySpanEnd _
  | .listenSpanComplete | .cadencePeriodDue | .viewNotice | .armingNotice | .reportNotice | .operatorNotice | .peerNotice
  | .candidateScaleNotice | .timeBaseNotice | .handOver | .scaleYielded | .sourceNotice | .peerScaleNotice | .secondNotice
  | .laneArmingNotice | .stampStreamDone | .scanEnd | .programComplete _ | .voidComplete | .eraseComplete _
  | .powerFailure => none

/-- The command may open a second (R18). -/
def Instr.opensSecond : Instr → Prop
  | .ppsPulse _ | .windowClose | .flywheelEdge => True
  | _ => False

/-- The command acts on a part in which a reset holds: the resets themselves, the supply, and what stands on the pair. -/
def Instr.actsInReset : Instr → Prop
  | .powerOnReset | .pinReset | .resetEnd | .powerFailure | .frameStartHeard | .busQuietInstant | .frameReceived _ _ => True
  | _ => False

end Sys2Proof

namespace Sys2Proof.Machine

/-! ## Commands and replies -/

/-- A transaction waits for a command and no reset holds (R170, R171). -/
def State.accepting (s : State) : Prop := s.held = false ∧ s.cp.phase = .request

/-- The state that only differs by a command taken and its reply formed (R170, R172). -/
def State.answered (s : State) (code : Nat) (payload : List Byte) (status : Status) (body : List Byte) : State :=
  { s with
    cp :=
      { s.cp with
        phase := .response, request := s.cp.request ++ commandBytes code payload
        response := some { status := status, body := body } } }

/-- A reset has begun: operations in flight stop, the transaction is abandoned, the cause is written, the part is held
(R169, R181, R182). What an operation in flight leaves of its cells is free (log 23). -/
def State.resetBegun (s : State) (cause : ResetCause) (powered : Bool) : State :=
  { s with
    hs := { s.hs with array := s.hs.stopped (Config.residue s.free), operation := .noOperation }
    sbi := { s.sbi with buffer := none, pair := s.sbi.pair.abandoned, ended := s.sbi.ended.abandoned }
    ls := { s.ls with stream := .idle }
    cp :=
      { s.cp with
        phase := .idle, request := [], response := none, eventRead := .noRecord, resetPending := false
        resetCause := cause }
    held := true, powered := powered, free := s.free + 1 }

/-! ## What a block's work leaves, with its events and its notices -/

/-- The notices that Source Intake gives for one piece of its work, from `s` to `t`, each once: a report notice where the keys of
the sources in good standing have changed (R44), a source notice where the D of the FRESH and the DISCORDANT have (R45), an
operator notice where the operator entry has (R52). Nothing else that waits changes. -/
def State.sourceNoticed (s t : State) : Prop :=
  t.mail =
    { s.mail with
      report := if t.si.offer = s.si.offer then s.mail.report else s.mail.report + 1
      source := if t.si.offeredDs = s.si.offeredDs then s.mail.source else s.mail.source + 1
      operator := if t.si.operator = s.si.operator then s.mail.operator else s.mail.operator + 1 }

/-- What the offset checks make of the sources, from `s` to `t`, and with `derive` the derivations of their keys too (R41, R46). The
check is made of a settled report with a repeat count of Nd or more of a source that is not STALE, and leaves every other source's
status and standing. A source that becomes FRESH or DISCORDANT raises its event (R39, R50), and a derivation raises what it finds
invalid (R43); the events of the checks come first, by source index, and then those of the derivations, by the model's choice (log
46). -/
def State.sourcesChecked (derive : Bool) (s t : State) : Prop :=
  t.si.sources.length = s.si.sources.length
    ∧ ∃ checks invalid : Nat → List Event,
      let every (events : Nat → List Event) : List Event := (List.range s.si.sources.length).flatMap events
      t.cp = (s.raiseAll (every checks ++ every invalid)).cp
        ∧ ∀ (i : Nat) (r r' : SourceRecord) (p : Params), s.params = some p → s.si.sources[i]? = some r →
          t.si.sources[i]? = some r' →
          let checked : Prop := r.settled.isSome = true ∧ p.nd ≤ r.repeats ∧ r.status ≠ .stale
          (∀ o, r.settled = some o → checked → (r'.status, r'.standing) = s.offsetCheck o)
            ∧ (¬checked → r'.status = r.status ∧ r'.standing = r.standing)
            ∧ checks i =
              (match r.settled with
              | none => []
              | some o =>
                if r'.status = .fresh ∧ r.status ≠ .fresh then [.sourceFresh i o.d]
                else if r'.status = .discordant ∧ r.status ≠ .discordant then
                  [.sourceDiscordant i o.d (match s.ss.d with | some d => d | none => 10)]
                else [])
            ∧ (let judged : SourceRecord := { r with status := r'.status, standing := r'.standing }
              (r', invalid i) = if derive then s.deriveSource i judged else (judged, []))

/-- The operator entry after the first and third cases of R55, which are tested while the time is SET and the scale known: the items
whose epoch lies ahead and whose key is still valid stay, in their order. -/
def State.operatorSwept (s t : State) : Prop :=
  (s.tb.timeState = .unset ∨ s.ss.status = .unknown → t.si.operator = s.si.operator)
    ∧ ∀ d, s.tb.timeState = .set → s.ss.status ≠ .unknown → s.ss.d = some d →
      t.si.operator =
        s.si.operator.filter (fun i => decide ((s.tb.t : Int) < i.key.epoch d) && i.key.valid (some d))

/-- What an entry of the Peer Table offers the Candidate Table: a listing peer, LIVE and not split from this station's time, whether
it votes, its entries and its scale status; any other nothing (R84, R85). -/
def PeerEntry.offers (e : PeerEntry) : Option (Bool × List ViewEntry × Option ScaleStatus) :=
  if e.state = .live ∧ e.timeSplit = false then
    some (!e.scaleSplit, (match e.view with | some v => v.entries | none => []), e.view.map (·.status))
  else none

/-- The scale peers, LIVE, not split and CONFIRMED, each with its D (R84). -/
def PeerTable.scalePeers (pt : PeerTable) : List (Nat × Nat) :=
  pt.entries.filterMap fun e =>
    match e.view with
    | some v => if e.state = .live ∧ e.timeSplit = false ∧ v.status = .confirmed then some (e.address, v.d) else none
    | none => none

/-- The notices that the Peer Table gives for one piece of its work, from `s` to `t`, each once (R85): a peer notice that names, in
rising order, the addresses whose offer has changed and those purged, where there is one, and a peer scale notice where the scale
peers or the D of one have changed. Nothing else that waits changes. -/
def State.peerNoticed (s t : State) : Prop :=
  ∃ changed : List Nat,
    changed.Pairwise (· < ·)
      ∧ (∀ a,
        a ∈ changed
          ↔ a < 32
            ∧ ((t.pt.find a).bind PeerEntry.offers ≠ (s.pt.find a).bind PeerEntry.offers
              ∨ (s.pt.find a).isSome = true ∧ t.pt.find a = none))
      ∧ t.mail =
        { s.mail with
          peer := if changed = [] then s.mail.peer else s.mail.peer ++ [changed]
          peerScale := if t.pt.scalePeers = s.pt.scalePeers then s.mail.peerScale else s.mail.peerScale + 1 }

/-! ## What the History Store does next -/

/-- The STORE_GAP of records lost at once: their number, and the kind and epoch T of the first; none for none (R165, R166). -/
def lostEvents (cause : GapCause) : List HistoryRecord → List Event
  | [] => []
  | r :: more => [.storeGap cause (more.length + 1) r.kind r.epochT]

/-- The store goes from `u` to FAILED in `t` (R165): STORE_FAULT with its cause, the head record lost, the records behind it
discarded and told, and nothing else changed. That STORE_FAULT comes first is the model's reading (log 43). -/
def State.storeFails (cause : StoreFaultCause) (u t : State) : Prop :=
  t =
    { u with
      hs :=
        { u.hs with
          state := .failed, queue := [], gapFlag := !(u.hs.queue.drop 1).isEmpty, operation := .noOperation }
      cp := (u.raiseAll (.storeFault cause :: lostEvents .failed (u.hs.queue.drop 1))).cp }

/-- The store goes from `u` to INHIBITED in `t` (R166): inhibit pending is cleared, every record still queued, the head too, is
discarded and told, and nothing else changes. -/
def State.storeInhibited (u t : State) : Prop :=
  t =
    { u with
      hs :=
        { u.hs with
          state := .inhibited, inhibitPending := false, queue := [], gapFlag := !u.hs.queue.isEmpty
          operation := .noOperation }
      cp := (u.raiseAll (lostEvents .inhibited u.hs.queue)).cp }

/-- The store begins the write of the record at the head of its queue, from `u` to `t` (R161). With nothing queued it is IDLE; with
no sequence left it goes to FAILED; otherwise it programs the record at the write pointer with the next sequence, which it uses up,
or, where the page is not writable from there, erases the page first. Nothing else changes. -/
def State.beginsWrite (u t : State) : Prop :=
  let writable : Prop := ∀ i, u.hs.pointer ≤ i → i / 16 = u.hs.pointer / 16 → u.hs.classOf i = .empty
  (u.hs.queue = [] → t = { u with hs := { u.hs with state := .idle, operation := .noOperation } })
    ∧ ∀ r rest, u.hs.queue = r :: rest →
      (u.hs.nextSequence = none → u.storeFails (.sequence u.hs.pointer) t)
        ∧ ∀ n, u.hs.nextSequence = some n →
          (writable →
              t =
                { u with
                  hs :=
                    { u.hs with
                      state := .programming, operation := .program (r.slotBytes n) n
                      nextSequence := if n < 4294967295 then some (n + 1) else none } })
            ∧ (¬writable → t = { u with hs := { u.hs with state := .erasing, operation := .erase } })

/-! ## Operands in range -/

/-- The ranges of the commission record (Table 10-2). -/
def CommissionRequest.inRange (r : CommissionRequest) : Prop :=
  let p := r.params
  p.address ≤ 31 ∧ (1 ≤ p.qmin ∧ p.qmin ≤ 8) ∧ (1 ≤ p.hd ∧ p.hd ≤ 48) ∧ (60 ≤ p.ha ∧ p.ha ≤ 86400) ∧ p.p ≤ 15 ∧ p.pc ≤ 15
    ∧ (3 ≤ p.peerTimeout ∧ p.peerTimeout ≤ 120 ∧ p.p + 1 < p.peerTimeout) ∧ (2 ≤ p.sourceTimeout ∧ p.sourceTimeout ≤ 255)
    ∧ (1 ≤ p.nd ∧ p.nd ≤ 8) ∧ (10 ≤ p.yieldDelay ∧ p.yieldDelay ≤ 600) ∧ (1 ≤ p.tau ∧ p.tau ≤ 50000) ∧ r.laneCount ≤ 8
    ∧ (∀ l ∈ r.lanes.take r.laneCount,
        ∃ k, LaneKind.ofCode l.kindCode = some k ∧ (k = .localTime → l.zone ≤ 3) ∧ l.lead ≤ 48
          ∧ (k = .smear → 60 ≤ l.window ∧ l.window ≤ p.ha))
    ∧ ∀ u ∈ r.zoneUnits, -48 ≤ u ∧ u ≤ 56

/-- The ranges of an observation (R37 and its table). -/
def ObserveRequest.inRange (o : ObserveRequest) : Prop :=
  o.source < 4 ∧ (10 ≤ o.d ∧ o.d ≤ 255) ∧ o.leapCode ≤ 2 ∧ (∀ n ∈ o.day, o.leapCode ≠ 0 ∧ firstOfMonth n = true)
    ∧ ∀ c ∈ o.change, c.zone < 4 ∧ (-720 ≤ c.offset ∧ c.offset ≤ 840 ∧ c.offset % 15 = 0) ∧ c.minute < Config.calendarMinutes

/-- Field `i` of the commission record fails its check (Table 10-2, R173): lane n's fields are 13 + 4n to 16 + 4n, checked for the
lanes in use, and the zone offsets are 45 to 48. -/
def CommissionRequest.fails (r : CommissionRequest) (i : Nat) : Prop :=
  let p := r.params
  i = 1 ∧ 31 < p.address ∨ i = 2 ∧ (p.qmin < 1 ∨ 8 < p.qmin) ∨ i = 3 ∧ (p.hd < 1 ∨ 48 < p.hd)
    ∨ i = 4 ∧ (p.ha < 60 ∨ 86400 < p.ha) ∨ i = 5 ∧ 15 < p.p ∨ i = 6 ∧ 15 < p.pc
    ∨ i = 7 ∧ (p.peerTimeout < 3 ∨ 120 < p.peerTimeout ∨ p.peerTimeout ≤ p.p + 1)
    ∨ i = 8 ∧ (p.sourceTimeout < 2 ∨ 255 < p.sourceTimeout) ∨ i = 9 ∧ (p.nd < 1 ∨ 8 < p.nd)
    ∨ i = 10 ∧ (p.yieldDelay < 10 ∨ 600 < p.yieldDelay) ∨ i = 11 ∧ (p.tau < 1 ∨ 50000 < p.tau) ∨ i = 12 ∧ 8 < r.laneCount
    ∨ (∃ (n : Nat) (l : LaneRequest), n < r.laneCount ∧ r.lanes[n]? = some l
      ∧ (i = 13 + 4 * n ∧ LaneKind.ofCode l.kindCode = none
        ∨ i = 14 + 4 * n ∧ LaneKind.ofCode l.kindCode = some .localTime ∧ 3 < l.zone ∨ i = 15 + 4 * n ∧ 48 < l.lead
        ∨ i = 16 + 4 * n ∧ LaneKind.ofCode l.kindCode = some .smear ∧ (l.window < 60 ∨ p.ha < l.window)))
    ∨ ∃ (z : Nat) (u : Int), r.zoneUnits[z]? = some u ∧ i = 45 + z ∧ (u < -48 ∨ 56 < u)

/-- Field `i` of an observation fails its check (the table of R37). -/
def ObserveRequest.fails (o : ObserveRequest) (i : Nat) : Prop :=
  i = 1 ∧ 3 < o.source ∨ i = 2 ∧ (o.d < 10 ∨ 255 < o.d) ∨ i = 3 ∧ 2 < o.leapCode
    ∨ i = 4 ∧ (∃ n ∈ o.day,
      o.leapCode = 0 ∨ 46751 < n ∨ (convertLabel ((86400 * n : Nat) : Int) false).fields.day ≠ 1)
    ∨ (∃ c ∈ o.change,
      i = 5 ∧ 3 < c.zone ∨ i = 6 ∧ (c.offset < -720 ∨ 840 < c.offset ∨ c.offset % 15 ≠ 0) ∨ i = 7 ∧ 67322879 < c.minute)

/-! ## The laws of the device -/

/-- The law of the event queue (R177, R178). -/
def State.queueLaw (s : State) : Prop := s.cp.queue.length ≤ 32 ∧ s.cp.overflow ≤ 255

/-- A station is DORMANT exactly while it holds no commission record (R67, R174). -/
def State.commissionLaw (s : State) : Prop := s.sbi.participation = .dormant ↔ s.params = none

/-- The law of the pair: only an ACTIVE station holds a request or a frame to transmit (R57, section 4.5). -/
def State.transmitLaw (s : State) : Prop :=
  s.commissionLaw ∧ (s.sbi.participation ≠ .active → s.sbi.request = none ∧ s.sbi.buffer = none)

/-- The law of the Peer Table: entries in ascending order of address, each below 32, none the station's own, none while
DORMANT (R76). -/
def State.peerLaw (s : State) : Prop :=
  s.commissionLaw ∧ (s.pt.entries.map (·.address)).Pairwise (· < ·)
    ∧ (∀ e ∈ s.pt.entries, e.address < 32 ∧ s.params.map (·.address) ≠ some e.address) ∧ (s.params = none → s.pt.entries = [])

/-- The first law of the Candidate Table: at most 8 records, no two of one key (R89). -/
def CandidateTable.keysLaw (ct : CandidateTable) : Prop := ct.records.length ≤ 8 ∧ (ct.records.map (·.key)).Nodup

/-- The second law of the Candidate Table: no two rivals are ARMED (R107). -/
def CandidateTable.rivalsLaw (ct : CandidateTable) : Prop :=
  ∀ a ∈ ct.records, ∀ b ∈ ct.records, a.state = .armed → b.state = .armed → a.key.rival b.key = false

/-- The laws of the Candidate Table, with the bound of the barred list (R89, R97, R107). -/
def State.tableLaw (s : State) : Prop := s.ct.keysLaw ∧ s.ct.rivalsLaw ∧ s.ct.barred.length ≤ 8

/-- The state after a settlement, by TALLY or by LATE, among records as they stood before it (R107): the rival groups settled are
those that hold a record to arm and no ARMED one. Of the ACCEPTED records of such a group the one with more pro than every other is
armed, by what the settlement is by (log 53), and any other leaves as CONFLICTED, barred: OUTVOTED where one was armed and TIED
where none was. -/
def State.settledAs (t : State) (by_ : ArmedBy) (records : List Candidate) (toArm : Candidate → Prop) : Prop :=
  let group (c r : Candidate) : Prop := r.key.target = c.key.target ∧ r.key.day = c.key.day
  let ahead (c : Candidate) : Prop := ∀ r ∈ records, group c r → r.state = .accepted → r.key ≠ c.key → r.pro < c.pro
  ∀ c ∈ records,
    let settled : Prop :=
      c.state = .accepted ∧ (∃ r ∈ records, group c r ∧ toArm r) ∧ ∀ r ∈ records, group c r → r.state ≠ .armed
    let outvoted : Prop := ∃ r ∈ records, group c r ∧ r.state = .accepted ∧ ahead r
    (¬settled → c ∈ t.ct.records)
      ∧ (settled → ahead c →
        { c with state := .armed, armedBy := some by_ } ∈ t.ct.records
          ∧ ∃ e ∈ t.cp.queue, e.event = .candidateArmed c.key by_)
      ∧ (settled → ¬ahead c →
        (∀ r ∈ t.ct.records, r.key ≠ c.key) ∧ (∃ b ∈ t.ct.barred, b.key = c.key ∧ b.reason = .conflicted)
          ∧ (outvoted → ∃ e ∈ t.cp.queue, e.event = .candidateConflict c.key .outvoted)
          ∧ (¬outvoted → ∃ e ∈ t.cp.queue, e.event = .candidateConflict c.key .tied))

/-- The record that decides an indicator: of those ahead, the first ARMED one in table order, or, with none ARMED, the first
ACCEPTED one (R145, R146). -/
def decidesIndicator (reading : List Candidate) (ahead : Candidate → Prop) (c : Candidate) : Prop :=
  ∃ before after, reading = before ++ c :: after ∧ ahead c
    ∧ (c.state = .armed ∧ (∀ x ∈ before, x.state = .armed → ¬ahead x)
      ∨ c.state = .accepted ∧ (∀ x ∈ reading, x.state = .armed → ¬ahead x) ∧ ∀ x ∈ before, x.state = .accepted → ¬ahead x)

/-- A value of D (R120). -/
def isOffset (d : Nat) : Prop := 10 ≤ d ∧ d ≤ 255

/-- What a key must carry for its application to keep the laws of the offset and of the zones: a D within 10..255, a zone
and a zone offset (R12). -/
def Key.sound (k : Key) : Prop :=
  match k.kind with
  | .leapInsert | .leapDelete => True
  | .offsetSet => ∃ v : Int, k.value = some v ∧ 10 ≤ v ∧ v ≤ 255
  | .localShift => ∃ (v : Int) (z : Nat), k.value = some v ∧ k.target = .zone z ∧ z < 4 ∧ zoneOffsetOk v = true

/-- The law of the offset: D lies within 10..255, and is absent exactly while the status is UNKNOWN (R120). -/
def ScaleState.offsetLaw (ss : ScaleState) : Prop := (ss.status = .unknown ↔ ss.d = none) ∧ ∀ d ∈ ss.d, isOffset d

/-- The law of the zones (R121). -/
def ScaleState.zonesLaw (ss : ScaleState) : Prop := ss.zones.length = 4 ∧ ∀ z ∈ ss.zones, zoneOffsetOk z = true

/-- The values that may become D are values of D: what the sources report, what CONFIRMED peers carry, what the tally counts,
the yield value, and the keys of the records and of the hand-overs that wait (R120). -/
def State.sourcesOfD (s : State) : Prop :=
  (∀ r ∈ s.si.sources, (∀ o ∈ r.last, isOffset o.d) ∧ ∀ o ∈ r.settled, isOffset o.d)
    ∧ (∀ e ∈ s.pt.entries, ∀ v ∈ e.view, v.status = .confirmed → isOffset v.d)
    ∧ (∀ x ∈ s.ss.tally, isOffset x.1) ∧ (∀ v ∈ s.ss.yieldValue, isOffset v)
    ∧ (∀ r ∈ s.ct.records, r.key.sound) ∧ ∀ h ∈ s.mail.handOver, ∀ x ∈ h.due, x.1.sound

/-- The laws of the offset and of the zones, with what keeps them (R120, R121). -/
def State.scaleLaw (s : State) : Prop := s.ss.offsetLaw ∧ s.ss.zonesLaw ∧ s.sourcesOfD

/-- The tolerances that a window may take (R20, Table 10-2). -/
def State.toleranceLaw (s : State) : Prop := s.tb.tolerance ≤ 50000 ∧ ∀ p ∈ s.params, p.tau ≤ 50000

/-- Where the last edge lies against nominal, in each pulse state: what keeps edges half a second apart (R18, R20 to R31). -/
def State.edgesLaw (s : State) : Prop :=
  s.toleranceLaw ∧ Config.halfSecond ≤ s.tb.holdOff
    ∧ match s.tb.pulseState with
      | .seeking => s.tb.lastEdge = none
      | .locked | .bridging => ∃ n, s.tb.nominal = some n ∧ ∀ e ∈ s.tb.lastEdge, e ≤ n + 500000
      | .flywheel => ∃ n, s.tb.nominal = some n ∧ ∀ e ∈ s.tb.lastEdge, e ≤ n + 500000 ∨ e = n + Config.ticksPerSecond
      | .untimed => True

/-- The source's status and standing are those that the offset check gives it, where the check is made (R46). -/
def State.sourceChecked (s : State) (r : SourceRecord) : Prop :=
  ∀ p ∈ s.params, ∀ o ∈ r.settled, p.nd ≤ r.repeats → r.status ≠ .stale → (r.status, r.standing) = s.offsetCheck o

/-- A frame that a station can assemble: its fields within their widths, a D that goes with its status, at most 8 entries
with distinct keys that admission lets in (R63, R89, R94, R186). -/
def ViewFrame.sound (f : ViewFrame) : Prop :=
  f.sender < 32 ∧ f.version < 65536 ∧ f.t < 4294967296 ∧ (f.status = .unknown → f.d = 0) ∧ (f.status ≠ .unknown → isOffset f.d)
    ∧ f.entries.length ≤ 8 ∧ (f.entries.map (·.key)).Nodup ∧ ∀ e ∈ f.entries, e.key.formed = true ∧ e.key.sound

/-- A record as Scale State posts it: its fields within their widths (R134, R156). -/
def HistoryRecord.sound (r : HistoryRecord) : Prop :=
  r.epochT < 4294967296 ∧ isOffset r.dAfter ∧ r.zones.length = 4 ∧ ∀ z ∈ r.zones, zoneOffsetOk z = true

/-- The bounds of the store's own state, and the array in canonical form (R155, R160, R163, R164). -/
def State.storeLaw (s : State) : Prop :=
  s.hs.array.wf = true ∧ s.hs.pointer < 64 ∧ s.hs.queue.length ≤ 4 ∧ s.hs.failureRun ≤ 1 ∧ s.hs.eraseRun ≤ 1

/-- A smear record as Table 8-3 bounds it. -/
def Smear.sound (r : Smear) : Prop := r.x = r.t0 + r.width ∧ 2 ≤ r.width ∧ r.width ≤ 86400

/-- The law of the correction and the law of the sixtieth second, on one stamp (R140, R141). -/
def Stamp.sound (p : Stamp) : Prop :=
  p.correction ≤ 999999999 ∧ (p.correction ≠ 0 → p.laneKind = .smear)
    ∧ ∀ c ∈ p.calendar, c.second = 60 → p.laneKind = .utc ∨ p.laneKind = .localTime

/-- The lanes in use are those below the lane count, each with its profile; every lane has a place for its smear record and
its latest stamp (R138, R153). -/
def LaneStamps.lanesLaw (ls : LaneStamps) : Prop :=
  ls.laneCount ≤ 8 ∧ ls.profiles.length = ls.laneCount ∧ ls.smears.length = 8 ∧ ls.latest.length = 8

/-- The laws of the stamps, with what keeps them (R138, R140, R141). -/
def State.stampLaw (s : State) : Prop :=
  s.ls.lanesLaw ∧ (∀ p ∈ s.ls.profiles, ∀ w ∈ p.window, w ≤ 86400) ∧ (∀ x ∈ s.ls.smears, ∀ r ∈ x, r.sound)
    ∧ ∀ x ∈ s.ls.latest, ∀ l ∈ x, l.stamp.sound

end Sys2Proof.Machine
end

