-- ==== Sys2Proof/WellFormed.lean ====
section
/-! DEFINITION. Which commands are well formed: the operands that something outside the part can present. -/

namespace Sys2Proof

/-- A payload length is one byte, 0..255 (R170, R189). -/
def payloadFits (payload : List Byte) : Bool := decide (payload.length ≤ 255)

/-- A source index names one of the four records (Table 3-1). -/
def sourceExists (source : Nat) : Bool := decide (source < 4)

/-- A station address lies in 0..31 (R63). -/
def addressExists (address : Nat) : Bool := decide (address < 32)

/-- The command codes of Table 10-1 (R183): COMMISSION to RESET are 0x01..0x0D. -/
def codeKnown (code : Byte) : Bool := decide (1 ≤ code.toNat) && decide (code.toNat ≤ 13)

/-- A slot has 20 bytes (R155). -/
def slotSized (bytes : List Byte) : Bool := decide (bytes.length = 20)

/-- A page has 16 slots of 20 bytes (R155). -/
def pageSized (bytes : List Byte) : Bool := decide (bytes.length ≤ 320)

/-- Fewer than 8 bits stand beyond the last whole byte (R65). -/
def oddBitsFit (oddBits : Nat) : Bool := decide (oddBits < 8)

/-- The well-formed commands. -/
def Instr.wf : Instr → Bool
  | .commission p | .loadTime p | .observe p | .setOperatorEntry p | .readStatus p | .readSources p | .readPeers p
  | .readCandidates p | .readStamp p | .readHistory p | .readEvent p | .prepareExtraction p | .resetCommand p =>
    payloadFits p
  | .unknownCommand code p => !codeKnown code && payloadFits p
  | .sourceStale i => sourceExists i
  | .peerSilent a | .peerPurge a => addressExists a
  | .frameReceived _ oddBits => oddBitsFit oddBits
  | .programComplete r => slotSized r
  | .eraseComplete r => pageSized r
  | .transactionBegin _ | .transactionEnd | .eventResponseComplete | .powerOnReset | .pinReset | .resetEnd
  | .ppsPulse _ | .windowClose | .flywheelEdge | .refclkLost | .refclkRestored _ | .appliedChangeNotice | .graceExpiry
  | .sourceScaleNotice | .candidateNotice | .peerTableScaleNotice | .frameStartHeard | .busQuietInstant
  | .transmitStart _ | .frameCompleted _ | .readBackMismatch _ | .courtesySpanEnd _ | .listenSpanComplete
  | .cadencePeriodDue | .viewNotice | .armingNotice | .reportNotice | .operatorNotice | .peerNotice
  | .candidateScaleNotice | .timeBaseNotice | .handOver | .scaleYielded | .sourceNotice | .peerScaleNotice
  | .secondNotice | .laneArmingNotice | .stampStreamDone | .scanEnd | .voidComplete | .powerFailure => true

end Sys2Proof
end

