-- ==== Sys2Proof/Certificates/Slice0/Obligations.lean ====
section
/-! DEFINITION. The statements for the provers. Statements about an edge hold for each of the 24 orders of the blocks (log 5),
and statements that meet a free value hold for every value of it. -/

open Sys2Proof Sys2Proof.Machine

/-! ## The machine -/

/-- The command at the front of the queue runs on the state with the queue's rest; an empty queue idles (log 1). -/
def Obligations.StepRunsTheFrontCommand : Prop :=
  (∀ (c : Instr) (rest : List Instr) (s : State), s.pending = c :: rest → step s = exec c { s with pending := rest })
    ∧ ∀ s : State, s.pending = [] → step s = .next s

/-- What the part holds after a power-on reset, block by block, of what the reset rules name (R35, R51, R56, R75, R88, R118, R122,
R154, R169, R182). -/
def Obligations.ResetLeavesTheManualsValues : Prop :=
  let s := State.reset
  (s.tb.t = 0 ∧ s.tb.timeState = .unset ∧ s.tb.pulseState = .seeking ∧ s.tb.nominal = none
      ∧ s.tb.tolerance = 1000 ∧ s.tb.missedRun = 0 ∧ s.tb.relockRun = 0 ∧ s.tb.rephaseRun = 0 ∧ s.tb.lastStray = none
      ∧ s.tb.lastEdge = none ∧ s.tb.pendingLoad = none ∧ s.tb.runtCount = 0 ∧ s.tb.clock = .present ∧ s.tb.cycleRun = 0)
    ∧ (s.si.sources.length = 4
      ∧ (∀ r ∈ s.si.sources,
        r.status = .empty ∧ r.standing = .current ∧ r.last = none ∧ r.repeats = 0 ∧ r.age = 0 ∧ r.settled = none
          ∧ r.unusable = false)
      ∧ s.si.applied = none ∧ s.si.operator = [])
    ∧ (s.sbi.participation = .dormant ∧ s.sbi.listenCount = 0 ∧ s.sbi.cadence = 0 ∧ s.sbi.critical = false
      ∧ s.sbi.prompt = false ∧ s.sbi.request = none ∧ s.sbi.changedSent = false ∧ s.sbi.collisionRun = 0
      ∧ s.sbi.courtesyHold = false ∧ s.sbi.buffer = none ∧ s.sbi.discards = 0 ∧ s.sbi.busError = false)
    ∧ (s.pt.entries = [] ∧ s.pt.entryInvalid = false)
    ∧ (s.ct.records = [] ∧ s.ct.barred = [] ∧ s.ct.version = 0 ∧ s.ct.tableFull = false
      ∧ s.ct.lastView = { records := [], d := none, status := .unknown, timeState := .unset, pulseState := .seeking })
    ∧ (s.ss.d = none ∧ s.ss.status = .unknown ∧ s.ss.zones = [0, 0, 0, 0] ∧ s.ss.zonesFromStore = false
      ∧ s.ss.marker = false ∧ s.ss.utcStep = false ∧ s.ss.zoneSteps = [false, false, false, false] ∧ s.ss.tally = []
      ∧ s.ss.yieldValue = none ∧ s.ss.yieldTimer = 0 ∧ s.ss.applied = [])
    ∧ (s.ls.laneCount = 0 ∧ s.ls.profiles = [] ∧ s.ls.smears = List.replicate 8 none ∧ s.ls.latest = List.replicate 8 none
      ∧ s.ls.stream = .idle)
    ∧ (s.hs.state = .scanning ∧ s.hs.queue = [] ∧ s.hs.failureRun = 0 ∧ s.hs.eraseRun = 0 ∧ s.hs.inhibitPending = false
      ∧ s.hs.gapFlag = false)
    ∧ s.cp.phase = .idle ∧ s.cp.request = [] ∧ s.cp.response = none ∧ s.cp.overflow = 0 ∧ s.cp.resetPending = false
    ∧ s.cp.resetCause = .power ∧ s.cp.queue = [{ event := .reset .power, t := none }] ∧ s.params = none

/-- Every law that the invariants below keep holds right after reset. -/
def Obligations.LawsHoldAtReset : Prop :=
  let s := State.reset
  s.queueLaw ∧ s.transmitLaw ∧ s.peerLaw ∧ s.tableLaw ∧ s.scaleLaw ∧ s.edgesLaw ∧ s.storeLaw ∧ s.stampLaw

/-! ## Transactions (R170 to R172) -/

/-- The fall of HCS_N begins a transaction whatever stood before; its rise ends one, and discards its bytes and its reply (R170,
R171). RESET is answered OK and changes nothing until HCS_N rises; the rise then begins a command reset (R176, R181, R182). The
bytes of a request spell its command: the select code 0x5C, the command code, the payload length, the payload (R170, R183, Table
11-4), and so do its bits, most significant first within each byte (R183). HDO is driven in the RESPONSE phase alone, with the
turnaround byte, the status, the length and the response bytes, and 0xFF after them, most significant bit first too (R170, R183).
-/
def Obligations.TransactionsBeginAndEnd : Prop :=
  (∀ (select : Byte) (s : State), s.held = false →
      exec (.transactionBegin select) s =
        .next
          { s with
            cp :=
              { s.cp with
                phase := if select = 0x5C#8 then .request else .ignoring
                request := [select], response := none, eventRead := .noRecord } })
    ∧ (∀ s : State, s.held = false → s.cp.resetPending = false →
      exec .transactionEnd s =
        .next { s with cp := { s.cp with phase := .idle, request := [], response := none, eventRead := .noRecord } })
    ∧ (∀ s : State, s.accepting →
      exec (.resetCommand []) s =
        .next { s.answered 13 [] .ok [] with cp := { (s.answered 13 [] .ok []).cp with resetPending := true } })
    ∧ (∀ s : State, s.held = false → s.cp.resetPending = true →
      exec .transactionEnd s = .next (s.resetBegun .command s.powered))
    ∧ (∀ (c : Instr) (code : Nat) (payload : List Byte) (form : Bool), c.wf = true → c.request = some (code, payload, form) →
      let bytes := 0x5C#8 :: BitVec.ofNat 8 code :: BitVec.ofNat 8 payload.length :: payload
      readRequest bytes = some c
        ∧ readRequestBits (bytes.flatMap (fun b => (List.range 8).map (fun i => b.getMsbD i))) = some c)
    ∧ (∀ s : State, s.hdoDriven = true ↔ s.cp.phase = .response ∧ s.held = false)
    ∧ (∀ (s : State) (reply : Reply) (i : Nat), s.cp.response = some reply →
      s.hdoByte i =
        ([0xFF#8, BitVec.ofNat 8 reply.status.code] ++ beBytes 2 reply.body.length ++ reply.body).getD i 0xFF#8)
    ∧ ∀ (s : State) (i : Nat), s.hdoBit i = (s.hdoByte (i / 8)).getMsbD (i % 8)

/-- The model's reading of two points (DEDUCED): a host command that comes where no transaction waits for one changes nothing (log
31, from R170 and R171), and while a reset holds a command that is not a reset, the supply or something on the pair changes nothing
(log 41, from R171 and R181). -/
def Obligations.CommandsDisregarded : Prop :=
  (∀ (c : Instr) (r : Nat × List Byte × Bool) (s : State), c.request = some r → ¬s.accepting → exec c s = .next s)
    ∧ ∀ (c : Instr) (s : State), s.held = true → ¬c.actsInReset → exec c s = .next s

/-- A request of the wrong form, or with a code of no command, is answered MALFORMED with no response bytes and changes nothing
else (R172). This is all that UNKNOWN_COMMAND does. -/
def Obligations.MalformedRequestsChangeNothing : Prop :=
  (∀ (c : Instr) (code : Nat) (payload : List Byte) (s : State), c.request = some (code, payload, false) → s.accepting →
      exec c s = .next (s.answered code payload .malformed []))
    ∧ ∀ (code : Byte) (payload : List Byte) (s : State), s.accepting →
      exec (.unknownCommand code payload) s = .next (s.answered code.toNat payload .malformed [])

/-! ## Resets (R169, R181, R182) -/

/-- A power-on reset and a loss of power begin a reset of the cause POWER in every state, a fall of RESET_N one of the cause PIN in
a part that has power. That the part is held between a loss of power and the next power-on is the model's (log 29). -/
def Obligations.ResetsBegin : Prop :=
  (∀ s : State, exec .powerOnReset s = .next (s.resetBegun .power true))
    ∧ (∀ s : State, s.powered = true → exec .pinReset s = .next (s.resetBegun .pin true))
    ∧ (∀ s : State, s.powered = false → exec .pinReset s = .next s)
    ∧ ∀ s : State, exec .powerFailure s = .next (s.resetBegun .power false)

/-- At the end of a reset every block stands at its reset values, whatever the part held before; the array and the cause of the
most recent reset are kept, and the RESET record is the only one in the queue (R181, R182). What stands on the pair is not the
part's to reset (log 22). The model's own, by its logs: the notices that waited between blocks are gone (log 41), and a RESET_END
where no reset holds (log 7) or where the part has no power (log 29) does nothing. -/
def Obligations.ResetsEndAlike : Prop :=
  (∀ s : State, s.held = true → s.powered = true →
      exec .resetEnd s =
        .next
          { s with
            tb := .reset, si := .reset, sbi := { ScaleBus.reset with pair := s.sbi.pair, ended := s.sbi.ended }
            pt := .reset, ct := .reset, ss := .reset, ls := .reset, hs := .reset s.hs.array, params := none
            mail := .reset, held := false
            cp :=
              { phase := .idle, request := [], response := none
                queue := [{ event := .reset s.cp.resetCause, t := none }], overflow := 0, resetCause := s.cp.resetCause
                resetPending := false, eventRead := .noRecord } })
    ∧ ∀ s : State, s.held = false ∨ s.powered = false → exec .resetEnd s = .next s

/-- What any reset leaves of the store's operation in flight, whatever the cells are left with (R169, R181; log 23). A program cut
short leaves its slot TORN; of a slot that read EMPTY before, it has cleared no bit that it is not to clear, and it has not begun
the complete marker where another byte is not as it was meant (R156). A voiding leaves its slot TORN or CORRUPT; an erase leaves its
page not all erased, where it was not before, with no slot VALID but one that still holds what it held. Every slot outside stays,
and with no operation in flight the whole array does. -/
def Obligations.AnInterruptedProgramIsTorn : Prop :=
  ∀ (c : Instr) (s : State),
    (c = .powerOnReset ∨ c = .powerFailure ∨ c = .pinReset ∧ s.powered = true
      ∨ c = .transactionEnd ∧ s.held = false ∧ s.cp.resetPending = true) →
    s.hs.array.wf = true → s.hs.pointer < 64 →
    ∃ t,
      exec c s = .next t ∧ t.hs.operation = .noOperation
        ∧ (∀ (r : HistoryRecord) (n : Nat), r.sound → s.hs.operation = .program (r.slotBytes n) n →
          t.hs.classOf s.hs.pointer = .torn ∧ (∀ i, i ≠ s.hs.pointer → t.hs.array.slot i = s.hs.array.slot i)
            ∧ (s.hs.classOf s.hs.pointer = .empty →
              let cell (i : Nat) : Byte := (t.hs.array.slot s.hs.pointer).getD i 0
              let meant (i : Nat) : Byte := (r.slotBytes n).getD i 0
              (∀ i, i < 20 → cell i &&& meant i = meant i) ∧ (cell 19 = 0xFF#8 ∨ ∀ i, i < 19 → cell i = meant i)))
        ∧ (∀ (cells : List Byte) (n : Nat), cells.length = 20 → s.hs.operation = .voiding cells n →
          (t.hs.classOf s.hs.pointer = .torn ∨ t.hs.classOf s.hs.pointer = .corrupt)
            ∧ ∀ i, i ≠ s.hs.pointer → t.hs.array.slot i = s.hs.array.slot i)
        ∧ (s.hs.operation = .erase →
          ((∃ i, i / 16 = s.hs.pointer / 16 ∧ s.hs.classOf i ≠ .empty) →
              ∃ i, i / 16 = s.hs.pointer / 16 ∧ t.hs.classOf i ≠ .empty)
            ∧ (∀ i, i / 16 = s.hs.pointer / 16 → t.hs.classOf i = .valid → t.hs.array.slot i = s.hs.array.slot i)
            ∧ ∀ i, i / 16 ≠ s.hs.pointer / 16 → t.hs.array.slot i = s.hs.array.slot i)
        ∧ (s.hs.operation = .noOperation → t.hs.array = s.hs.array)

/-! ## The Time Base -/

/-- LOAD_TIME (R32): in every participation state a value within the calendar becomes the pending load, over an earlier one, and
any other is refused with RANGE and field index 1; no other command that is taken disturbs a pending load but an edge, at which it
takes effect. -/
def Obligations.LoadTimeWaitsForTheNextEdge : Prop :=
  (∀ (payload : List Byte) (s : State), s.accepting → payload.length = 4 →
      exec (.loadTime payload) s =
        .next
          (if beNat payload ≤ 4039372799 then
            ({ s with tb := { s.tb with pendingLoad := some (beNat payload) } } : State).answered 2 payload .ok []
          else s.answered 2 payload .range [1]))
    ∧ ∀ (c : Instr) (s t : State) (v : Nat), (∀ p, c ≠ .loadTime p) → s.held = false → exec c s = .next t →
      s.tb.pendingLoad = some v →
      (t.tb.pendingLoad = some v ∧ t.tb.lastEdge = s.tb.lastEdge ∧ t.tb.t = s.tb.t)
        ∨ (c.opensSecond ∧ t.tb.t = v ∧ t.tb.timeState = .set ∧ t.tb.lastEdge.isSome = true)

/-- The law of the count (R19): T changes only at a second edge, at which it rises by one or takes the pending load; the time state
becomes SET with the first load and stays so. T runs modulo 2³², which only states no run reaches can show (log 42), and the edge
that brings it to the end of its range places a load of 0 (R34). -/
def Obligations.LawOfTheCount : Prop :=
  ∀ (c : Instr) (rest : List Instr) (s t : State), s.pending = c :: rest → step s = .next t → c ≠ .resetEnd →
    (t.tb.t = s.tb.t ∧ t.tb.timeState = s.tb.timeState ∧ t.tb.lastEdge = s.tb.lastEdge)
      ∨ (c.opensSecond ∧ t.tb.lastEdge.isSome = true
        ∧ t.tb.pendingLoad = (if t.tb.t = 4294967295 then some 0 else none)
        ∧ match s.tb.pendingLoad with
          | none => t.tb.t = (s.tb.t + 1) % 4294967296 ∧ t.tb.timeState = s.tb.timeState
          | some v => t.tb.t = v ∧ t.tb.timeState = .set)

/-- What a second edge does at any tick, in any order of the blocks (R18, R33, R111, R113): the count is settled, the tick noted, a
hold-off of 500 ms to 520 ms begun; the Candidate Table hands Scale State the new T, the time-base state, the load indication and
the due records, once. Of the table as the pass's step 10 leaves it, with every record that was ARMED before the edge still ARMED,
the due records are the ARMED ones whose epoch T has reached, and, after them, the ARMED shifts whose minute the label has reached
with D′, each in table order; they leave the table, no ARMED record that is due stays, and what is left of the ACCEPTED and ARMED
ones is what the lanes read (R139; log 21). What lies beyond the four blocks that take the edge is left as it was. -/
def Obligations.AnEdgeOpensASecond : Prop :=
  ∀ (s : State) (tick : Nat) (events : List Event),
    let t := s.edge tick events
    (∃ h, 5000000 ≤ h ∧ h ≤ 5200000
        ∧ t.tb =
          { s.tb.settled with
            lastEdge := some tick, runtReported := false, edgePulse := s.tb.pulseState, holdOff := h })
      ∧ (∃ due,
          t.mail.handOver =
            s.mail.handOver
              ++ [{ t := t.tb.t, timeState := t.tb.timeState, pulseState := s.tb.pulseState, due := due
                    load :=
                      match s.tb.pendingLoad, s.tb.timeState with
                      | none, _ => .noLoad
                      | some _, .unset => .set
                      | some v, .set => if v = s.tb.t + 1 then .noLoad else .stepped ((v : Int) - (s.tb.t + 1)) }]
            ∧ ∃ (u : State) (days shifts : List Candidate),
              let opened := u.stepEpochs.stepBarred.stepExpiry.stepAdmission.stepTallies.stepWithdrawal.stepDemotion
              let before := opened.stepArm.stepFollow.stepAcceptance.ct.records
              let after (d : Int) (r : Candidate) : Int :=
                match r.key.kind with
                | .leapInsert => d + 1
                | .leapDelete => d - 1
                | .offsetSet => (match r.key.value with | some v => v | none => d)
                | .localShift => d
              let label : Int := (t.tb.t : Int) - (days.foldl after (s.dNow : Int) - 10)
              u.tb = t.tb ∧ u.ss = s.ss ∧ u.params = s.params
                ∧ (s.tableLaw → ∀ r ∈ s.ct.records, r.state = .armed → ∃ r' ∈ before, r'.key = r.key ∧ r'.state = .armed)
                ∧ due = (days ++ shifts).map (fun r => (r.key, r.epoch)) ∧ days.Sublist before ∧ shifts.Sublist before
                ∧ (∀ r ∈ before, r ∈ days ↔ r.state = .armed ∧ r.key.kind ≠ .localShift ∧ r.epoch ≤ (t.tb.t : Int))
                ∧ (∀ r ∈ before, r ∈ shifts ↔ r.state = .armed ∧ r.key.kind = .localShift ∧ (r.key.day : Int) * 60 ≤ label)
                ∧ t.ct.records = before.filter (fun r => !(due.map (fun x => x.1)).contains r.key)
                ∧ t.ct.reading = t.ct.records.filter (fun r => r.state != .proposed)
                ∧ ∀ r ∈ t.ct.records, r.state = .armed →
                  (r.key.kind ≠ .localShift → (t.tb.t : Int) < r.epoch)
                    ∧ (r.key.kind = .localShift → label < (r.key.day : Int) * 60))
      ∧ t.ss = s.ss ∧ t.ls = s.ls ∧ t.hs = s.hs ∧ t.params = s.params ∧ t.mail.second = s.mail.second
      ∧ t.pending = s.pending ∧ t.held = s.held ∧ t.powered = s.powered

/-- At a second edge, in any order of the blocks, every source that is not EMPTY and every peer is a second older (R40, R86); a
source past its timeout is STALE, a peer past its timeout is not LIVE, and a peer SILENT for long enough is gone (R87). The grace
of the applied-change record falls by one, and at 0 the record becomes absent (R47). A load that sets the time makes every T
difference absent and clears TIME_SPLIT; a step reduces each by its delta, held within ±4,294,967,295, and tests the split afresh;
any other edge leaves both (R82). What the edge leaves of the sources and of the peers is one piece of work of each block, done once
and with the T that the edge has brought, its events raised among those of the others: Source Intake's raises SOURCE_STALE (R40), then
the events of the checks and of the derivations (R39, R43, R50), sweeps the operator entry (R55) and gives the notices of the offers
it has changed (R44, R45); the Peer Table's raises PEER_DISCORDANT where the step splits a peer (R82), then PEER_SILENT (R86), and
gives its notices, of the purged too (R85, R87). That each kind of event comes for every record before the next is the model's
choice (log 46). -/
def Obligations.AnEdgeAgesSourcesAndPeers : Prop :=
  (∀ (s : State) (p : Params) (tick : Nat) (events : List Event), s.params = some p →
    let t := s.edge tick events
    let loaded (before after : PeerEntry) : Prop :=
      let step (delta : Int) : Prop :=
        match before.tDifference with
        | none => after.tDifference = none ∧ after.timeSplit = before.timeSplit
        | some v =>
          let held := max (-4294967295) (min 4294967295 (v - delta))
          after.tDifference = some held ∧ after.timeSplit = decide (held < -1 ∨ 1 < held)
      let same : Prop := after.tDifference = before.tDifference ∧ after.timeSplit = before.timeSplit
      match s.tb.pendingLoad, s.tb.timeState with
      | none, _ => same
      | some _, .unset => after.tDifference = none ∧ after.timeSplit = false
      | some v, .set => if v = s.tb.t + 1 then same else step ((v : Int) - (s.tb.t + 1))
    t.si.applied =
        (match s.si.applied with
        | some a => if a.grace ≤ 1 then none else some { a with grace := a.grace - 1 }
        | none => none)
      ∧ (∀ (i : Nat) (r : SourceRecord), s.si.sources[i]? = some r →
        ∃ r', t.si.sources[i]? = some r' ∧ r'.age = (if r.status = .empty then r.age else min 65535 (r.age + 1))
          ∧ r'.last = r.last ∧ r'.repeats = r.repeats ∧ r'.settled = r.settled
          ∧ (r.status ≠ .empty → p.sourceTimeout < r'.age → r'.status = .stale))
      ∧ (∀ e ∈ t.pt.entries,
          (∃ e0 ∈ s.pt.entries,
              e.address = e0.address ∧ e.age = min 65535 (e0.age + 1) ∧ e.view = e0.view ∧ loaded e0 e)
            ∧ (e.state = .live → e.age ≤ p.peerTimeout) ∧ ¬(e.state = .silent ∧ 9 * p.peerTimeout < e.age))
      ∧ ∀ e0 ∈ s.pt.entries,
        e0.age + 1 ≤ 9 * p.peerTimeout →
          ∃ e ∈ t.pt.entries, e.address = e0.address ∧ e.age = min 65535 (e0.age + 1) ∧ loaded e0 e)
    ∧ (∀ (s : State) (tick : Nat) (events : List Event),
      let t := s.edge tick events
      let load : LoadIndication :=
        match s.tb.pendingLoad, s.tb.timeState with
        | none, _ => .noLoad
        | some _, .unset => .set
        | some v, .set => if v = s.tb.t + 1 then .noLoad else .stepped ((v : Int) - (s.tb.t + 1))
      let opened : State := { s with tb := t.tb }
      let meanwhile (u : State) : Prop :=
        u.tb = t.tb ∧ u.ss = s.ss ∧ u.params = s.params ∧ ∃ earlier : List Event, u.cp = (opened.raiseAll earlier).cp
      (∃ (u : State) (later : List Event),
          meanwhile u ∧ u.si = s.si ∧ t.si = u.sourceEdge.si ∧ t.cp = (u.sourceEdge.raiseAll later).cp)
        ∧ ∃ (u : State) (later : List Event),
          meanwhile u ∧ u.pt.entries = s.pt.entries ∧ t.pt.entries = (u.peerEdge load).pt.entries
            ∧ t.cp = ((u.peerEdge load).raiseAll later).cp)
    ∧ (∀ (s : State) (p : Params), s.params = some p →
      let t := s.sourceEdge
      let older (r : SourceRecord) : SourceRecord := if r.status = .empty then r else { r with age := min 65535 (r.age + 1) }
      let late (r : SourceRecord) : Bool :=
        decide (p.sourceTimeout < (older r).age ∧ (r.status = .settling ∨ r.status = .fresh ∨ r.status = .discordant))
      let aged (r : SourceRecord) : SourceRecord :=
        if late r then { older r with status := .stale, standing := .current } else older r
      let stale : List Event :=
        s.si.sources.zipIdx.flatMap (fun x => if late x.1 then [.sourceStale x.2 (older x.1).age] else [])
      ({ s with
          si := { s.si with sources := s.si.sources.map aged, applied := t.si.applied }
          cp := (s.raiseAll stale).cp } : State).sourcesChecked true t
        ∧ s.operatorSwept t ∧ s.sourceNoticed t ∧ { t with si := s.si, mail := s.mail, cp := s.cp, free := s.free } = s)
    ∧ ∀ (s : State) (p : Params) (load : LoadIndication), s.params = some p →
      let t := s.peerEdge load
      let discordant (e : PeerEntry) : List Event :=
        match load, e.tDifference with
        | .stepped delta, some v =>
          let held := max (-4294967295) (min 4294967295 (v - delta))
          if (held < -1 ∨ 1 < held) ∧ e.timeSplit = false then
            [.peerDiscordant e.address (max (-2147483648) (min 2147483647 held))]
          else []
        | _, _ => []
      let silent (e : PeerEntry) : List Event :=
        let age := min 65535 (e.age + 1)
        if e.state = .live ∧ p.peerTimeout < age then [.peerSilent e.address age] else []
      t.cp = (s.raiseAll (s.pt.entries.flatMap discordant ++ s.pt.entries.flatMap silent)).cp ∧ s.peerNoticed t
        ∧ { t with pt := s.pt, mail := s.mail, cp := s.cp } = s

/-- SEEKING (R21): the first pulse issues an edge at the pulse and makes the pulse state LOCKED with nominal at the pulse and every
run 0, with no event of its own; the next window is a second later; a load pending at that moment takes effect; there is no window
and no window close, so WINDOW_CLOSE and FLYWHEEL_EDGE do nothing there (log 7), and nothing but a pulse moves T or ends the
waiting, except that REFCLK loss makes it UNTIMED. -/
def Obligations.TheFirstPulseLocks : Prop :=
  (∀ (stamp : Nat) (s : State), s.held = false → s.tb.pulseState = .seeking → s.tb.clock = .present →
      let t :=
        (s.putTime
          { s.tb with
            pulseState := .locked, nominal := some stamp, tolerance := s.tolerance, missedRun := 0, relockRun := 0
            rephaseRun := 0, cycleRun := 0, lastStray := none, windowHit := false }).edge stamp []
      exec (.ppsPulse stamp) s = .next t ∧ t.tb.pulseState = .locked ∧ t.tb.nominal = some stamp
        ∧ (t.tb.missedRun = 0 ∧ t.tb.relockRun = 0 ∧ t.tb.rephaseRun = 0 ∧ t.tb.cycleRun = 0) ∧ (∀ v ∈ s.tb.pendingLoad, t.tb.t = v)
        ∧ ∀ next : Nat,
          t.tb.inWindow next = true
            ↔ stamp + 10000000 ≤ next + 10 * s.tolerance ∧ next ≤ stamp + 10000000 + 10 * s.tolerance)
    ∧ (∀ s : State, s.held = false → s.tb.pulseState = .seeking →
      exec .windowClose s = .next s ∧ exec .flywheelEdge s = .next s)
    ∧ ∀ (c : Instr) (s t : State), s.held = false → s.tb.pulseState = .seeking → (∀ stamp, c ≠ .ppsPulse stamp) →
      exec c s = .next t → t.tb.t = s.tb.t ∧ (t.tb.pulseState = .seeking ∨ c = .refclkLost ∧ t.tb.pulseState = .untimed)

/-- In LOCKED or BRIDGING a pulse within the window, both ends included, issues an edge at the pulse and takes nominal with it
(R22); a pulse before the window is a runt, which issues no edge, moves nothing but the runt count, and is reported once until the
next edge (R23), and so, by the model's choice, is one stamped past the end of a window that has not been closed (log 8). -/
def Obligations.PulsesInALockedSecond : Prop :=
  ∀ (s : State) (n stamp : Nat), s.held = false → s.tb.pulseState = .locked ∨ s.tb.pulseState = .bridging →
    s.tb.nominal = some n →
    (n + 10000000 ≤ stamp + 10 * s.tb.tolerance ∧ stamp ≤ n + 10000000 + 10 * s.tb.tolerance →
        exec (.ppsPulse stamp) s =
          .next
            ((s.putTime
              { s.tb with
                pulseState := .locked, nominal := some stamp, tolerance := s.tolerance, missedRun := 0 }).edge stamp []))
      ∧ (stamp + 10 * s.tb.tolerance < n + 10000000 ∨ n + 10000000 + 10 * s.tb.tolerance < stamp →
        exec (.ppsPulse stamp) s =
          .next
            (if s.tb.runtReported then { s with tb := { s.tb with runtCount := min 65535 (s.tb.runtCount + 1) } }
            else
              ({ s with tb := { s.tb with runtCount := 0, runtReported := true } } : State).raise
                (.runtPulse (min 65535 (s.tb.runtCount + 1)))))

/-- A window close in LOCKED or BRIDGING issues an edge at the close and moves nominal on by exactly a second; the third in a row
makes the pulse state FLYWHEEL and raises PULSE_LOST (R24). -/
def Obligations.WindowClosesBridge : Prop :=
  ∀ (s : State) (n : Nat), s.held = false → s.tb.pulseState = .locked ∨ s.tb.pulseState = .bridging → s.tb.nominal = some n →
    let moved : TimeBase :=
      { s.tb with nominal := some (n + 10000000), tolerance := s.tolerance, windowHit := false }
    let close := n + 10000000 + 10 * s.tb.tolerance
    (s.tb.missedRun < 2 →
        exec .windowClose s =
          .next ((s.putTime { moved with missedRun := s.tb.missedRun + 1, pulseState := .bridging }).edge close []))
      ∧ (2 ≤ s.tb.missedRun →
        exec .windowClose s =
          .next
            ((s.putTime
              { moved with
                missedRun := 3, pulseState := .flywheel, relockRun := 0, rephaseRun := 0, lastStray := none }).edge close
                [.pulseLost]))

/-- In FLYWHEEL the edge falls at the window centre, once, and the window close moves nominal on by a second without an edge, the
relock run kept where the window held a pulse and 0 where it held none (R25). That the edge is due while the last edge lies before
the centre, that the command does nothing otherwise, and that a window close taken before its flywheel edge issues that edge first,
is the model's reading (log 12). -/
def Obligations.FlywheelSeconds : Prop :=
  ∀ (s : State) (n : Nat), s.held = false → s.tb.pulseState = .flywheel → s.tb.nominal = some n →
    ((∀ e ∈ s.tb.lastEdge, e < n + 10000000) →
        exec .flywheelEdge s = .next (s.edge (n + 10000000) [])
          ∧ let u := s.edge (n + 10000000) []
            exec .windowClose s =
              .next
                { u with
                  tb :=
                    { u.tb with
                      nominal := some (n + 10000000), tolerance := s.tolerance, windowHit := false
                      relockRun := if s.tb.windowHit then s.tb.relockRun else 0 } })
      ∧ ((∃ e ∈ s.tb.lastEdge, n + 10000000 ≤ e) →
        exec .flywheelEdge s = .next s
          ∧ exec .windowClose s =
            .next
              { s with
                tb :=
                  { s.tb with
                    nominal := some (n + 10000000), tolerance := s.tolerance, windowHit := false
                    relockRun := if s.tb.windowHit then s.tb.relockRun else 0 } })

/-- Pulses in FLYWHEEL. Within the window, a second pulse is a runt; the first adds to the relock run, and at 3 the Time Base
relocks, with one edge for the second (R23, R25, R26). Outside it, a pulse is a runt that feeds the rephase run, and at 8 the Time
Base takes the phase of the stray train, with an edge where 500 ms have passed (R27, R28). That a pulse stamped past the window's
end is stray as one before it is (R27 speaks of the latter) is the model's choice (log 8), and so is the test of whether the
second's edge has been issued when it relocks (log 12). -/
def Obligations.FlywheelPulses : Prop :=
  ∀ (s : State) (n stamp : Nat), s.held = false → s.tb.pulseState = .flywheel → s.tb.nominal = some n →
    let locked (b : TimeBase) : TimeBase :=
      { b with
        pulseState := .locked, nominal := some stamp, tolerance := s.tolerance, missedRun := 0, relockRun := 0
        rephaseRun := 0, cycleRun := 0, lastStray := none, windowHit := false }
    let silently (u : State) (event : Event) : State :=
      ({ u with tb := locked u.tb, mail := { u.mail with timeBase := u.mail.timeBase + 1 } } : State).raise event
    (n + 10000000 ≤ stamp + 10 * s.tb.tolerance ∧ stamp ≤ n + 10000000 + 10 * s.tb.tolerance →
        (s.tb.windowHit = true → exec (.ppsPulse stamp) s = .next s.runt)
          ∧ (s.tb.windowHit = false → s.tb.relockRun < 2 →
            exec (.ppsPulse stamp) s =
              .next { s with tb := { s.tb with windowHit := true, relockRun := s.tb.relockRun + 1 } })
          ∧ (s.tb.windowHit = false → 2 ≤ s.tb.relockRun →
            let event : Event := .relocked ((stamp : Int) - (n + 10000000 : Nat))
            exec (.ppsPulse stamp) s =
              .next
                (if s.tb.lastEdge.all (fun e => decide (e < n + 10000000)) then
                  (s.putTime (locked s.tb)).edge stamp [event]
                else silently s event)))
      ∧ (stamp + 10 * s.tb.tolerance < n + 10000000 ∨ n + 10000000 + 10 * s.tb.tolerance < stamp →
        let run :=
          match s.tb.lastStray with
          | some l =>
            if l + 10000000 ≤ stamp + 10 * s.tb.tolerance ∧ stamp ≤ l + 10000000 + 10 * s.tb.tolerance then
              s.tb.rephaseRun + 1
            else 1
          | none => 1
        (run < 8 →
            exec (.ppsPulse stamp) s =
              .next { s.runt with tb := { s.runt.tb with rephaseRun := run, lastStray := some stamp } })
          ∧ (8 ≤ run →
            ∃ shift : Int, -5000000 < shift ∧ shift ≤ 5000000 ∧ (∃ k : Int, (stamp : Int) = n + k * 10000000 + shift)
              ∧ exec (.ppsPulse stamp) s =
                .next
                  (if s.tb.lastEdge.all (fun e => decide (e + 5000000 ≤ stamp)) then
                    (s.runt.putTime (locked s.runt.tb)).edge stamp [.rephased shift]
                  else silently s.runt (.rephased shift))))

/-- In UNTIMED a pulse inside the hold-off is a runt (R30); one past it issues an edge, and where REFCLK has been RESTORED it also
locks, with every run 0, the cycle run among them, and makes the clock PRESENT (R31). While the clock is LOST its cycles add to the cycle run, and at 1,000 the clock is
RESTORED and REFCLK_RESTORED is raised, the pulse state left as it is (R31). -/
def Obligations.UntimedUntilRefclkReturns : Prop :=
  (∀ (s : State) (stamp : Nat), s.held = false → s.tb.pulseState = .untimed →
    ((∃ e ∈ s.tb.lastEdge, stamp < e + s.tb.holdOff) → exec (.ppsPulse stamp) s = .next s.runt)
      ∧ ((∀ e ∈ s.tb.lastEdge, e + s.tb.holdOff ≤ stamp) →
        (s.tb.clock ≠ .restored → exec (.ppsPulse stamp) s = .next (s.edge stamp []))
          ∧ (s.tb.clock = .restored →
            exec (.ppsPulse stamp) s =
              .next
                ((s.putTime
                  { s.tb with
                    pulseState := .locked, nominal := some stamp, tolerance := s.tolerance, missedRun := 0, relockRun := 0
                    rephaseRun := 0, cycleRun := 0, lastStray := none, windowHit := false
                    clock := .present }).edge stamp []))))
    ∧ ∀ (cycles : Nat) (s : State), s.held = false →
    (s.tb.clock = .lost → s.tb.cycleRun + cycles < 1000 →
        exec (.refclkRestored cycles) s = .next { s with tb := { s.tb with cycleRun := s.tb.cycleRun + cycles } })
      ∧ (s.tb.clock = .lost → 1000 ≤ s.tb.cycleRun + cycles →
        exec (.refclkRestored cycles) s =
          .next (({ s with tb := { s.tb with cycleRun := 1000, clock := .restored } } : State).raise .refclkRestored))
      ∧ (s.tb.clock ≠ .lost → exec (.refclkRestored cycles) s = .next s)

/-- REFCLK loss (R29): from PRESENT it makes the pulse state UNTIMED from whatever state it held, discards the window, the runs and
the last stray pulse, keeps T, the time state and the pending load, and raises REFCLK_LOST; no window close and no flywheel edge
follows, so WINDOW_CLOSE and FLYWHEEL_EDGE do nothing in UNTIMED (log 7); from SEEKING too, and the first pulse then issues an
edge. While RESTORED a gap returns the clock to LOST and raises the event again; while LOST it only clears the cycle run. The
tolerance left behind is no one's to read (log 10). -/
def Obligations.RefclkLoss : Prop :=
  (∀ s : State, s.held = false → s.tb.clock = .present →
      ∃ tolerance,
        exec .refclkLost s =
          .next
            (({ s with
                tb :=
                  { s.tb with
                    clock := .lost, cycleRun := 0, pulseState := .untimed, nominal := none, tolerance := tolerance
                    missedRun := 0, relockRun := 0, rephaseRun := 0, lastStray := none, windowHit := false }
                mail :=
                  { s.mail with
                    timeBase := if s.tb.pulseState = .untimed then s.mail.timeBase else s.mail.timeBase + 1 } } : State).raise
              .refclkLost))
    ∧ (∀ s : State, s.held = false → s.tb.clock = .restored →
      exec .refclkLost s = .next (({ s with tb := { s.tb with clock := .lost, cycleRun := 0 } } : State).raise .refclkLost))
    ∧ (∀ s : State, s.held = false → s.tb.clock = .lost →
      exec .refclkLost s = .next { s with tb := { s.tb with cycleRun := 0 } })
    ∧ (∀ s : State, s.held = false → s.tb.pulseState = .untimed →
      exec .windowClose s = .next s ∧ exec .flywheelEdge s = .next s)
    ∧ ∀ (s : State) (stamp : Nat), s.held = false → s.tb.pulseState = .untimed → s.tb.lastEdge = none → s.tb.clock = .lost →
      exec (.ppsPulse stamp) s = .next (s.edge stamp [])

/-- Consecutive edges lie at least 500 ms apart in every pulse state (R18), from every state that the law of the edges allows, and
every step keeps that law. A pulse is not stamped before the last edge. -/
def Obligations.EdgesLieHalfASecondApart : Prop :=
  ∀ s t : State, s.edgesLaw → step s = .next t →
    (∀ stamp rest, s.pending = .ppsPulse stamp :: rest → ∀ e ∈ s.tb.lastEdge, e ≤ stamp) →
    t.edgesLaw ∧ ∀ e ∈ s.tb.lastEdge, ∀ e' ∈ t.tb.lastEdge, e' = e ∨ e + 5000000 ≤ e'

/-! ## Commissioning, the replies and the event queue -/

/-- COMMISSION with its form right: REFUSED outside DORMANT, BUSY while the store scans, RANGE with the field's index where a field
fails, and otherwise every block takes its parameters in one step and COMMISSIONED is raised (R172 to R174). A record passes
exactly where every field lies within its range, and the index is that of the first field that fails (Table 10-2, R173). -/
def Obligations.CommissionIsOneStep : Prop :=
  (∀ r : CommissionRequest,
    (r.failure = none ↔ r.inRange) ∧ ∀ i, r.failure = some i ↔ r.fails i ∧ ∀ j, j < i → ¬r.fails j)
    ∧ ∀ (payload : List Byte) (s : State), s.accepting → payload.length = 77 →
    let r := readCommission payload
    (s.sbi.participation ≠ .dormant →
        exec (.commission payload) s = .next (s.answered 1 payload .refused [small s.sbi.participation.code]))
      ∧ (s.sbi.participation = .dormant → s.hs.state = .scanning →
        exec (.commission payload) s = .next (s.answered 1 payload .busy []))
      ∧ (s.sbi.participation = .dormant → s.hs.state ≠ .scanning → ∀ i, r.failure = some i →
        exec (.commission payload) s = .next (s.answered 1 payload .range [small i]))
      ∧ (s.sbi.participation = .dormant → s.hs.state ≠ .scanning → r.failure = none →
        exec (.commission payload) s =
          .next
            ((({ s with
                params := some r.params
                sbi := { s.sbi with participation := .listening, listenCount := 0 }
                ss := { s.ss with zones := if s.ss.zonesFromStore then s.ss.zones else r.zoneUnits.map (fun u => 15 * u) }
                ls :=
                  { s.ls with
                    laneCount := r.laneCount
                    profiles := (r.lanes.take r.laneCount).map LaneRequest.profile } } : State).raise
              (.commissioned r.params.address r.laneCount)).answered 1 payload .ok
              [small r.params.address, small r.laneCount]))

/-- Four commands answer OK in every participation state with what stands and change nothing outside the Control Port (R56, R88,
R119, R175): READ_STATUS the items of R175; READ_SOURCES the four sources with the keys they offer, the applied change and the
operator entry; READ_PEERS every peer in address order; READ_CANDIDATES every candidate in table order and the barred list. How the
items are packed is the model's in part (log 26); the pulse state that READ_STATUS gives is the one that the most recent edge left
(log 45). -/
def Obligations.ReadsGiveWhatStands : Prop :=
  ∀ s : State, s.accepting →
    exec (.readStatus []) s =
      .next
        (s.answered 5 [] .ok
          ([small s.sbi.participation.code] ++ (match s.params with | some p => ([1, small p.address] : List Byte) | none => [0])
            ++ [small s.tb.timeState.code, small s.tb.edgePulse.code] ++ beBytes 4 s.tb.t
            ++ [if s.tb.pendingLoad.isSome then (1 : Byte) else 0]
            ++ [small (match s.ss.d with | some d => d | none => 0), small s.ss.status.code]
            ++ s.ss.zones.flatMap (signedBytes 2) ++ beBytes 2 s.ct.version
            ++ [small s.hs.state.code, small s.cp.resetCause.code, small s.cp.queue.length, small s.cp.overflow]))
      ∧ exec (.readSources []) s =
        .next
          (s.answered 6 [] .ok
            (s.si.sources.flatMap SourceRecord.bytes
              ++ (match s.si.applied with
                | some a => [1, small a.kind.code, small a.dBefore] ++ beBytes 2 a.grace
                | none => ([0] : List Byte))
              ++ operatorBytes s.si.operator ++ beBytes 2 s.ct.version))
      ∧ exec (.readPeers []) s =
        .next (s.answered 7 [] .ok (small s.pt.entries.length :: s.pt.entries.flatMap PeerEntry.bytes))
      ∧ exec (.readCandidates []) s =
        .next
          (s.answered 8 [] .ok
            (beBytes 2 s.ct.version ++ (small s.ct.records.length :: s.ct.records.flatMap Candidate.bytes)
              ++ (small s.ct.barred.length :: s.ct.barred.flatMap Barred.bytes)))

/-- READ_STAMP answers OK for a lane in use, with no stamp where none has been formed and else with the latest stamp, the T of its
second and whether it has been sent; RANGE for any other lane (R152, R153). While the stream is IDLE every stamp has been sent.
While it is SENDING the stamps go out once, lane 0 first: how many are found sent is free but for never falling (log 20), a lane's
has been sent where so many stand before its end, and the last lane's has not. READ_HISTORY answers BUSY while the store scans,
RANGE for a slot above 63, and otherwise OK with the slot's class, its fields as they read after a presence byte of 1, or a
presence byte of 0 alone where the slot is EMPTY (R189), and the store's state, pointer and next sequence (R168). Both change nothing outside the Control Port but what is known of the sending; how the
fields are packed is the model's (log 26). -/
def Obligations.ReadStampAndHistory : Prop :=
  (∀ (lane : Byte) (s : State), s.accepting →
    (lane.toNat < s.ls.laneCount →
        ∃ (count : Nat) (sent : Bool),
          exec (.readStamp [lane]) s =
              .next
                { s.answered 9 [lane] .ok
                    (match s.ls.latest[lane.toNat]? with
                    | some (some l) => 1 :: l.stamp.bytes ++ beBytes 4 l.t ++ [if sent then 1 else 0]
                    | _ => [0]) with
                  ls := { s.ls with sent := count }, free := s.free + 1 }
            ∧ s.ls.sent ≤ count ∧ (s.ls.stream = .idle → count = s.ls.sent ∧ sent = true)
            ∧ (s.ls.stream = .sending → (sent = true ↔ lane.toNat < count ∧ lane.toNat + 1 < s.ls.laneCount)))
      ∧ (s.ls.laneCount ≤ lane.toNat → exec (.readStamp [lane]) s = .next (s.answered 9 [lane] .range [1])))
    ∧ ∀ (slot : Byte) (s : State), s.accepting →
    (s.hs.state = .scanning → exec (.readHistory [slot]) s = .next (s.answered 10 [slot] .busy []))
      ∧ (s.hs.state ≠ .scanning → 63 < slot.toNat → exec (.readHistory [slot]) s = .next (s.answered 10 [slot] .range [1]))
      ∧ (s.hs.state ≠ .scanning → slot.toNat ≤ 63 →
        exec (.readHistory [slot]) s =
          .next
            (s.answered 10 [slot] .ok
              ([small (s.hs.classOf slot.toNat).code]
                ++ (if s.hs.classOf slot.toNat = .empty then [0] else 1 :: slotReply (s.hs.array.slot slot.toNat))
                ++ [small s.hs.state.code, small s.hs.pointer]
                ++ beBytes 4 (match s.hs.nextSequence with | some n => n | none => 0))))

/-- The record that READ_EVENT returns leaves the queue once, when the response is complete, whatever is posted meanwhile: then the
queue holds the records behind it and those posted, less those that a full queue has lost, and the overflow count is 0. Where HCS_N
rises before that, the queue and the count stand, and the next READ_EVENT returns the same record again; an empty queue is answered
with a count of 0 alone (R177, R178, R180). HINT_N is low while the queue holds a record, high while it is empty and while a reset
holds, and it falls as the reset ends (R179). -/
def Obligations.AnEventLeavesTheQueueOnce : Prop :=
  (∀ s : State, s.accepting → s.cp.queue = [] → exec (.readEvent []) s = .next (s.answered 11 [] .ok [0]))
    ∧ (∀ (s : State) (r : EventRecord) (rest : List EventRecord) (posted : List EventRecord), s.accepting →
      s.cp.queue = r :: rest → s.cp.queue.length ≤ 32 →
      ∃ t,
        exec (.readEvent []) s = .next t
          ∧ t = { s.answered 11 [] .ok (small s.cp.overflow :: r.bytes) with cp := t.cp }
          ∧ t.cp.response = some { status := .ok, body := small s.cp.overflow :: r.bytes } ∧ t.cp.queue = s.cp.queue
          ∧ t.cp.overflow = s.cp.overflow
          ∧ (∃ u,
            exec .eventResponseComplete (posted.foldl (fun v e => v.raiseAt e.t e.event) t) = .next u
              ∧ u.cp.queue = (rest ++ posted).drop ((rest ++ posted).length - 32) ∧ u.cp.overflow = 0
              ∧ u = { t with cp := u.cp })
          ∧ (s.cp.resetPending = false →
            ∃ u,
              exec .transactionEnd (posted.foldl (fun v e => v.raiseAt e.t e.event) t) = .next u
                ∧ u.cp.queue = (s.cp.queue ++ posted).drop ((s.cp.queue ++ posted).length - 32)
                ∧ (s.cp.overflow ≤ 255 →
                  u.cp.overflow = min 255 (s.cp.overflow + ((s.cp.queue ++ posted).length - 32)))
                ∧ u.cp.response = none
                ∧ u.cp.phase = .idle ∧ exec .eventResponseComplete u = .next u
                ∧ ∀ v, exec (.transactionBegin 0x5C#8) u = .next v → ∀ w, exec (.readEvent []) v = .next w →
                  ∀ next ∈ u.cp.queue.head?,
                    w.cp.response = some { status := .ok, body := small u.cp.overflow :: next.bytes }))
    ∧ (∀ s : State, s.hintN = true ↔ s.held = true ∨ s.cp.queue = [])
    ∧ ∀ s t : State, s.held = true → s.powered = true → exec .resetEnd s = .next t → t.hintN = false

/-- The law of the queue: it never holds more than 32 records, and the overflow count stays at 255 once there (R177, R178). -/
def Obligations.QueueLawKept : Prop := ∀ s t : State, s.queueLaw → step s = .next t → t.queueLaw

/-! ## Sources and the operator entry -/

/-- OBSERVE with its form right (R37 to R39): REFUSED without a commission record; RANGE with the index of the first field that
fails, which one does exactly where it lies outside its range; otherwise the observation is compared and counted, the age is 0, the
settled report is replaced at the settle count, which clears its report-unusable mark (R43), the status is SETTLING below it and
FRESH or DISCORDANT at or above it, with SOURCE_FRESH or SOURCE_DISCORDANT where the status is a new one, the keys are derived
afresh (R41), the other sources stay, each offer that has changed gives its notice (R44, R45), and the reply gives the status and
the count. -/
def Obligations.ObserveCountsObservations : Prop :=
  (∀ o : ObserveRequest,
    (o.failure = none ↔ o.inRange) ∧ ∀ i, o.failure = some i ↔ o.fails i ∧ ∀ j, j < i → ¬o.fails j)
    ∧ ∀ (payload : List Byte) (s : State), s.accepting → payload.length = 12 →
      let o := readObserve payload
      (s.params = none → exec (.observe payload) s = .next (s.answered 3 payload .refused [small s.sbi.participation.code]))
        ∧ (s.params.isSome = true → ∀ i, o.failure = some i →
          exec (.observe payload) s = .next (s.answered 3 payload .range [small i]))
        ∧ ∀ (p : Params) (r : SourceRecord), s.params = some p → o.failure = none → s.si.sources[o.source]? = some r →
          ∃ t r',
            exec (.observe payload) s = .next t ∧ t.si.sources = s.si.sources.set o.source r' ∧ r'.age = 0
              ∧ r'.last = some o.observation
              ∧ r'.repeats = (if r.last = some o.observation then min 255 (r.repeats + 1) else 1)
              ∧ r'.settled = (if r'.repeats = p.nd then some o.observation else r.settled)
              ∧ (r'.repeats < p.nd → r'.status = .settling ∧ r'.standing = .current)
              ∧ (p.nd ≤ r'.repeats → (r'.status, r'.standing) = s.offsetCheck o.observation)
              ∧ (let moved : List Event :=
                  if p.nd ≤ r'.repeats ∧ r'.status = .fresh ∧ r.status ≠ .fresh then [.sourceFresh o.source o.d]
                  else if p.nd ≤ r'.repeats ∧ r'.status = .discordant ∧ r.status ≠ .discordant then
                    [.sourceDiscordant o.source o.d (match s.ss.d with | some d => d | none => 10)]
                  else []
                let derived :=
                  s.deriveSource o.source
                    { r' with keys := r.keys, unusable := if r'.repeats = p.nd then false else r.unusable }
                r' = derived.1
                  ∧ t.cp =
                    ((s.raiseAll (moved ++ derived.2)).answered 3 payload .ok [small r'.status.code, small r'.repeats]).cp)
              ∧ t.mail =
                { s.mail with
                  report := if t.si.offer = s.si.offer then s.mail.report else s.mail.report + 1
                  source := if t.si.offeredDs = s.si.offeredDs then s.mail.source else s.mail.source + 1 }
              ∧ t.cp.response = some { status := .ok, body := [small r'.status.code, small r'.repeats] }
              ∧ t.si.applied = s.si.applied ∧ t.si.operator = s.si.operator
              ∧ { t with si := s.si, mail := s.mail, cp := s.cp, free := s.free } = s

/-- SET_OPERATOR_ENTRY with its form right (R53, R54): REFUSED without a commission record, RANGE for a list of more than two or at
the first item that fails, LATE at the first item too late, VERSION_MISMATCH with the version and the entry where the expected
version is not the current one; otherwise the list replaces the entry whole and the reply carries the version as the table's pass
leaves it. The items are tested in list order, and the first that fails decides (R53): an item is out of range unless it is a key
that is valid (R12), without the tests on D while the scale is UNKNOWN, with a decision, and no earlier item's; it is late where E
− 2 ≤ T, which is not tested while the time is UNSET or the scale UNKNOWN. Each item keeps its position in the list (R55; log 47).
-/
def Obligations.SetOperatorEntryReplacesWhole : Prop :=
  (∀ (s : State) (rs : List OperatorRequest),
    let ranged (i : Nat) (r : OperatorRequest) : Prop :=
      ∃ key decision, r.key = some key ∧ r.decision = some decision
        ∧ key.valid (if s.ss.status = .unknown then none else s.ss.d) = true ∧ ∀ e ∈ rs.take i, e.key ≠ some key
    let late (r : OperatorRequest) : Prop :=
      ∃ key d, r.key = some key ∧ s.tb.timeState = .set ∧ s.ss.status ≠ .unknown ∧ s.ss.d = some d
        ∧ key.epoch d - 2 ≤ (s.tb.t : Int)
    let passes (i : Nat) : Prop := ∀ r, rs[i]? = some r → ranged i r ∧ ¬late r
    (∀ is,
        s.checkItems 1 [] rs = .ok is
          ↔ (∀ i, passes i)
            ∧ rs.map (fun r => (r.key, r.decision)) = is.map (fun i => (some i.key, some i.decision))
            ∧ is.map (fun i => i.position) = (List.range rs.length).map (fun n => n + 1))
      ∧ ∀ fault p,
        s.checkItems 1 [] rs = .error (fault, p)
          ↔ ∃ i r, p = i + 1 ∧ rs[i]? = some r ∧ (∀ j, j < i → passes j)
            ∧ (fault = .range ∧ ¬ranged i r ∨ fault = .late ∧ ranged i r ∧ late r))
    ∧ ∀ (payload : List Byte) (s : State), s.accepting → operatorForm payload = true →
    let items := s.checkItems 1 [] (readOperatorItems payload)
    (s.params = none →
        exec (.setOperatorEntry payload) s = .next (s.answered 4 payload .refused [small s.sbi.participation.code]))
      ∧ (s.params.isSome = true → 2 < byteAt payload 0 →
        exec (.setOperatorEntry payload) s = .next (s.answered 4 payload .range [1]))
      ∧ (s.params.isSome = true → byteAt payload 0 ≤ 2 → ∀ p, items = .error (.range, p) →
        exec (.setOperatorEntry payload) s = .next (s.answered 4 payload .range [small (1 + p)]))
      ∧ (s.params.isSome = true → byteAt payload 0 ≤ 2 → ∀ p, items = .error (.late, p) →
        exec (.setOperatorEntry payload) s = .next (s.answered 4 payload .late [small p]))
      ∧ (s.params.isSome = true → byteAt payload 0 ≤ 2 → ∀ is, items = .ok is → fieldAt payload 1 2 ≠ s.ct.version →
        exec (.setOperatorEntry payload) s =
          .next (s.answered 4 payload .versionMismatch (beBytes 2 s.ct.version ++ operatorBytes s.si.operator)))
      ∧ (s.params.isSome = true → byteAt payload 0 ≤ 2 → ∀ is, items = .ok is → fieldAt payload 1 2 = s.ct.version →
        ∃ t,
          exec (.setOperatorEntry payload) s = .next t ∧ t.si = { s.si with operator := is }
            ∧ t.ct =
              (({ s with
                  si := { s.si with operator := is }
                  cp := { s.cp with request := s.cp.request ++ commandBytes 4 payload } } : State).pass none).ct
            ∧ t.cp.response = some { status := .ok, body := beBytes 2 t.ct.version }
            ∧ t.tb = s.tb ∧ t.ss = s.ss ∧ t.sbi = s.sbi ∧ t.ls = s.ls ∧ t.hs = s.hs ∧ t.pt.entries = s.pt.entries
            ∧ t.params = s.params)

/-- SOURCE_STALE makes the named source STALE where it is SETTLING, FRESH or DISCORDANT and older than the source timeout, with its
event, and leaves every other source (R40; log 6); GRACE_EXPIRY makes an applied-change record whose grace is 0 absent and has the
sources checked and their keys derived afresh (R46, R47; logs 6, 15), in status, standing, keys and mark alone, with the events of
that (R39, R43, R50; their order log 46), and does nothing while grace is left. Each gives the notices of the offers that it changes
(R44, R45). -/
def Obligations.SourcesGoStaleAndGracesEnd : Prop :=
  (∀ (i : Nat) (r : SourceRecord) (p : Params) (s : State), s.held = false → s.params = some p → s.si.sources[i]? = some r →
      let stale := p.sourceTimeout < r.age ∧ (r.status = .settling ∨ r.status = .fresh ∨ r.status = .discordant)
      (stale →
          ∃ t,
            exec (.sourceStale i) s = .next t
              ∧ t.si = { s.si with sources := s.si.sources.set i { r with status := .stale, standing := .current } }
              ∧ t.cp = (s.raise (.sourceStale i r.age)).cp ∧ s.sourceNoticed t
              ∧ { t with si := s.si, mail := s.mail, cp := s.cp } = s)
        ∧ (¬stale → exec (.sourceStale i) s = .next s))
    ∧ ∀ (a : AppliedChange) (s : State), s.held = false → s.si.applied = some a →
      (a.grace = 0 →
          ∃ t,
            exec .graceExpiry s = .next t ∧ t.si.applied = none ∧ t.si.operator = s.si.operator
              ∧ t.si.sources.map (fun r => (r.last, r.repeats, r.age, r.settled)) =
                s.si.sources.map (fun r => (r.last, r.repeats, r.age, r.settled))
              ∧ (∀ r ∈ t.si.sources, t.sourceChecked r)
              ∧ ({ s with si := { s.si with applied := none } } : State).sourcesChecked true t ∧ s.sourceNoticed t
              ∧ { t with si := s.si, mail := s.mail, cp := s.cp, free := s.free } = s)
        ∧ (0 < a.grace → exec .graceExpiry s = .next s)

/-- The offset check passes unless the scale is CONFIRMED and the settled D is another; then LAGGING behind the applied change,
EARLY for a coming leap and DISCORDANT are tried in that order (R46, R47, R49, R50). Source Intake takes its notices one at a time
(R41, R46, R47, R55, R116): an applied-change notice writes the record with a grace of twice the source timeout, a candidate notice
drops the operator items that were applied, a scale notice drops those whose epoch has been reached or whose key is no longer valid
and no other (R55), and each has the offset checks made afresh (a candidate notice where a leap has moved) and, but for a candidate
notice, the keys derived (log 15), with the events of that in the model's order (log 46); what the sources have reported stays, with
its count and its age, and nothing outside Source Intake changes but the notices and events. An item that is dropped leaves the other
in its position (R55; log 47). The keys of a settled report (R41 to R43, R48):
none while the time is UNSET or the scale UNKNOWN; else the leap key, of its own day or, where it has none, of the first day of the
next month, suppressed while the applied change is of its kind, then the shift key. Where one is invalid the report is marked
unusable, offers no key and raises SOURCE_REPORT_INVALID, once; where none is, the mark is clear. Of a label out of calendar range
the day of a flag is free but for being no day of the calendar (log 14). The sources in good standing offer their keys (R44), the
FRESH and the DISCORDANT their D (R45), and each of the three notices taken gives the notice of either offer that it changes, once,
and an operator notice where it changes the operator entry. -/
def Obligations.SourceIntakeTakesNotices : Prop :=
  (∀ (s : State) (o : Observation) (d : Nat), s.ss.d = some d →
    (s.ss.status ≠ .confirmed ∨ o.d = d → s.offsetCheck o = (.fresh, .current))
      ∧ (s.ss.status = .confirmed → o.d ≠ d →
        ((∃ a ∈ s.si.applied, o.d = a.dBefore) → s.offsetCheck o = (.fresh, .lagging))
          ∧ ((∀ a ∈ s.si.applied, o.d ≠ a.dBefore) →
            let ahead (kind : ChangeKind) : Prop :=
              ∃ p ∈ s.params, ∃ r ∈ s.ct.records,
                r.key.kind = kind ∧ (r.state = .accepted ∨ r.state = .armed) ∧ (s.tb.t : Int) < r.epoch
                  ∧ r.epoch ≤ (s.tb.t : Int) + 2 * p.sourceTimeout
            let early : Prop :=
              o.leap = .noLeap ∧ (o.d = d + 1 ∧ ahead .leapInsert ∨ o.d + 1 = d ∧ ahead .leapDelete)
            (early → s.offsetCheck o = (.fresh, .early)) ∧ (¬early → s.offsetCheck o = (.discordant, .current)))))
    ∧ (∀ (s : State) (i : Nat) (r : SourceRecord) (o : Observation), r.settled = some o →
      (s.tb.timeState = .unset ∨ s.ss.status = .unknown → s.deriveSource i r = ({ r with keys := [] }, []))
        ∧ ∀ d, s.tb.timeState = .set → s.ss.status ≠ .unknown → s.ss.d = some d →
          ∃ day : Nat,
            (∀ n, nextMonthDay ((s.tb.t : Int) - ((d : Int) - 10)) = some n → day = n)
              ∧ (nextMonthDay ((s.tb.t : Int) - ((d : Int) - 10)) = none → 46752 ≤ day)
              ∧ let leap (kind : ChangeKind) : List Key :=
                  match o.day with
                  | some n => [{ kind := kind, target := .utc, day := n, value := none }]
                  | none =>
                    if s.si.applied.map (fun a => a.kind) = some kind then []
                    else [{ kind := kind, target := .utc, day := day, value := none }]
                let keys : List Key :=
                  (match o.leap with
                    | .noLeap => []
                    | .insert => leap .leapInsert
                    | .delete => leap .leapDelete)
                    ++ (match o.change with
                      | some c => [{ kind := .localShift, target := .zone c.zone, day := c.minute, value := some c.offset }]
                      | none => [])
                ((∀ k ∈ keys, k.valid (some d) = true) →
                    s.deriveSource i r = ({ r with unusable := false, keys := keys }, []))
                  ∧ ∀ good bad rest, keys = good ++ bad :: rest → (∀ k ∈ good, k.valid (some d) = true) →
                    bad.valid (some d) = false →
                    s.deriveSource i r =
                      ({ r with unusable := true, keys := [] },
                        if r.unusable then [] else [.sourceReportInvalid i bad]))
    ∧ (∀ si : SourceIntake,
      (∀ i keys,
          (i, keys) ∈ si.offer
            ↔ ∃ r, si.sources[i]? = some r ∧ r.status = .fresh ∧ r.standing = .current ∧ r.unusable = false ∧ r.keys = keys)
        ∧ si.offeredDs =
          si.sources.map (fun r =>
            if r.status = .fresh ∨ r.status = .discordant then (match r.settled with | some o => some o.d | none => none)
            else none))
    ∧ ∀ (s : State) (p : Params), s.held = false → s.params = some p →
    let reported (u : State) : List (Option Observation × Nat × Nat × Option Observation) :=
      u.si.sources.map (fun r => (r.last, r.repeats, r.age, r.settled))
    (∀ kind d rest, s.mail.appliedChange = (kind, d) :: rest →
        ∃ t,
          exec .appliedChangeNotice s = .next t ∧ t.mail.appliedChange = rest
            ∧ t.si.applied = some { kind := kind, dBefore := d, grace := 2 * p.sourceTimeout }
            ∧ t.si.operator = s.si.operator ∧ (∀ r ∈ t.si.sources, t.sourceChecked r) ∧ reported t = reported s
            ∧ ({ s with si := { s.si with applied := t.si.applied } } : State).sourcesChecked true t
            ∧ ({ s with mail := { s.mail with appliedChange := rest } } : State).sourceNoticed t
            ∧ { t with si := s.si, mail := s.mail, cp := s.cp, free := s.free } = s)
      ∧ (∀ notice rest, s.mail.sourceScale = notice :: rest →
        ∃ t,
          exec .sourceScaleNotice s = .next t ∧ t.mail.sourceScale = rest ∧ t.si.applied = s.si.applied
            ∧ (∀ r ∈ t.si.sources, t.sourceChecked r) ∧ reported t = reported s
            ∧ t.si.sources = (takeEach s.recheckSources.deriveSource 0 s.recheckSources.si.sources).1
            ∧ s.sourcesChecked true t ∧ s.operatorSwept t
            ∧ ({ s with mail := { s.mail with sourceScale := rest } } : State).sourceNoticed t
            ∧ { t with si := s.si, mail := s.mail, cp := s.cp, free := s.free } = s)
      ∧ ∀ n rest, s.mail.candidate = n :: rest →
        ∃ t,
          exec .candidateNotice s = .next t ∧ t.mail.candidate = rest ∧ t.si.applied = s.si.applied
            ∧ t.si.operator = s.si.operator.filter (fun i => !n.applied.contains i.key)
            ∧ (n.leapMoved = true → (∀ r ∈ t.si.sources, t.sourceChecked r) ∧ s.sourcesChecked false t)
            ∧ reported t = reported s ∧ (n.leapMoved = false → t.si.sources = s.si.sources ∧ t.cp = s.cp)
            ∧ ({ s with mail := { s.mail with candidate := rest } } : State).sourceNoticed t
            ∧ { t with si := s.si, mail := s.mail, cp := s.cp, free := s.free } = s

/-! ## The Peer Table -/

/-- PEER_SILENT makes the LIVE entry of its address SILENT where it is older than the peer timeout, with its event (R86), PEER_PURGE
removes a SILENT one past nine times the timeout, without one (R87), and a scale notice finds every entry's scale split afresh (R83);
where what the table offers has changed, each gives its peer notice, which names the addresses, and its peer scale notice (R84, R85);
all other entries stay, and nothing outside the table changes but these. The two commands by themselves are the model's (log 6). -/
def Obligations.PeersGoSilentAndArePurged : Prop :=
  ∀ (a : Nat) (p : Params) (s : State), s.held = false → s.params = some p →
    (∃ t,
        let late (e : PeerEntry) : Bool := decide (e.address = a ∧ e.state = .live ∧ p.peerTimeout < e.age)
        exec (.peerSilent a) s = .next t
          ∧ t.pt = { s.pt with entries := s.pt.entries.map (fun e => if late e then { e with state := .silent } else e) }
          ∧ t.cp = (s.raiseAll ((s.pt.entries.filter late).map (fun e => .peerSilent e.address e.age))).cp
          ∧ s.peerNoticed t ∧ { t with pt := s.pt, mail := s.mail, cp := s.cp } = s)
      ∧ (∃ t,
        exec (.peerPurge a) s = .next t
          ∧ t.pt =
            { s.pt with
              entries :=
                s.pt.entries.filter (fun e => !decide (e.address = a ∧ e.state = .silent ∧ 9 * p.peerTimeout < e.age)) }
          ∧ s.peerNoticed t ∧ { t with pt := s.pt, mail := s.mail } = s)
      ∧ (∀ notice rest, s.mail.peerTableScale = notice :: rest →
        let noticed : State := { s with mail := { s.mail with peerTableScale := rest } }
        ∃ t,
          exec .peerTableScaleNotice s = .next t
            ∧ t.pt =
              { s.pt with
                entries :=
                  s.pt.entries.map (fun e =>
                    { e with
                      scaleSplit :=
                        match e.view with
                        | some v => decide (s.ss.status = .confirmed ∧ v.status = .confirmed ∧ s.ss.d ≠ some v.d)
                        | none => false }) }
            ∧ noticed.peerNoticed t ∧ { t with pt := s.pt, mail := s.mail } = s)

/-- A frame that passes the checks and bears another address makes or refreshes the entry of its sender (R60, R76 to R79, R81):
LIVE, age 0, the T difference found where both time states are SET. A sender with no entry raises PEER_JOINED with its address and
view version (R77). A frame of the version already stored keeps the view unless it is JOINING; a readable view replaces it
otherwise, and one that cannot be read leaves it and raises PEER_ENTRY_INVALID, as the first entry dropped from a readable one
does, once until the next edge (R80); where it is a new sender's, the entry has no view and no T difference, by the model's reading
(log 16). An entry that becomes split raises PEER_DISCORDANT (R81), and a view taken has its scale split tested (R83). What the
entry offers the Candidate Table and Scale State gives a notice where it has changed (R84, R85). Every other entry stays. A frame
that bears the station's own address makes a LISTENING or ACTIVE station MUTED and is not handed on (R62, R70). A DORMANT station
hands on nothing (R67, R76). A frame that began while a reset held, one that is the station's own, before or after the quiet
instant that ends it, and one at whose end the station drives the pair or a reset holds are not received (R62, R75; log 22). -/
def Obligations.FramesFromStations : Prop :=
  (∀ (bytes : List Byte) (f : ReceivedFrame) (p : Params) (s : State), s.held = false → s.sbi.buffer = none →
    s.sbi.pair = .frame ∨ s.sbi.pair = .quiet ∧ s.sbi.ended ≠ .unreceived → receiveFrame bytes 0 = some f → s.params = some p →
    (f.sender ≠ p.address →
        ∃ t e reports,
          let split : Prop := ∃ old ∈ s.pt.find f.sender, old.timeSplit = true
          let replaced : Prop :=
            s.pt.find f.sender = none ∨ f.cause = .joining
              ∨ ∀ old ∈ s.pt.find f.sender, old.view.map (·.version) ≠ some f.version
          exec (.frameReceived bytes 0) s = .next t ∧ t.pt.find f.sender = some e ∧ e.address = f.sender
            ∧ e.state = .live ∧ e.age = 0
            ∧ (∀ a, a ≠ f.sender → t.pt.find a = s.pt.find a)
            ∧ (¬replaced ∨ f.view = none → e.view = (s.pt.find f.sender).bind (fun old => old.view))
            ∧ (∀ v dropped, f.view = some (v, dropped) → replaced → e.view = some v)
            ∧ e.tDifference =
              (if s.tb.timeState = .set ∧ e.view.map (·.timeState) = some .set then some ((f.t : Int) - s.tb.t) else none)
            ∧ e.timeSplit = e.tDifference.any (fun v => decide (v < -1 ∨ 1 < v))
            ∧ (∀ v dropped, f.view = some (v, dropped) → replaced →
              e.scaleSplit = decide (s.ss.status = .confirmed ∧ v.status = .confirmed ∧ s.ss.d ≠ some v.d))
            ∧ (¬replaced ∨ f.view = none →
              e.scaleSplit = (match s.pt.find f.sender with | some old => old.scaleSplit | none => false))
            ∧ (let live (x : PeerEntry) : Bool := decide (x.state = .live ∧ x.timeSplit = false)
              let offer (x : Option PeerEntry) : Option (Bool × List ViewEntry × Option ScaleStatus) :=
                match x with
                | some y => if live y then some (!y.scaleSplit, y.entries, y.view.map (·.status)) else none
                | none => none
              let scales (entries : List PeerEntry) : List (Nat × Nat) :=
                entries.filterMap (fun x =>
                  match x.view with
                  | some v => if live x && decide (v.status = .confirmed) then some (x.address, v.d) else none
                  | none => none)
              t.mail =
                { s.mail with
                  peer := if offer (some e) = offer (s.pt.find f.sender) then s.mail.peer else s.mail.peer ++ [[f.sender]]
                  peerScale :=
                    if scales t.pt.entries = scales s.pt.entries then s.mail.peerScale else s.mail.peerScale + 1 })
            ∧ (∀ discordant : List Event,
              (e.timeSplit = true → ¬split →
                  discordant =
                    [.peerDiscordant f.sender (max (-2147483648) (min 2147483647 ((f.t : Int) - s.tb.t)))]) →
                (e.timeSplit = false ∨ split → discordant = []) →
                t.cp =
                  (s.raiseAll
                    ((if s.pt.find f.sender = none then [.peerJoined f.sender f.version] else []) ++ reports
                      ++ discordant)).cp)
            ∧ (¬replaced ∨ s.pt.entryInvalid = true → reports = [])
            ∧ (replaced → s.pt.entryInvalid = false →
              (f.view = none → reports = [.peerEntryInvalid f.sender 0 0 0])
                ∧ (∀ v, f.view = some (v, []) → reports = [])
                ∧ ∀ v position entry more, f.view = some (v, (position, entry) :: more) →
                  reports = [.peerEntryInvalid f.sender position (byteAt entry 0) (fieldAt entry 1 4)])
            ∧ t.pt.entryInvalid = (s.pt.entryInvalid || !reports.isEmpty)
            ∧ t.sbi =
              { s.sbi with
                pair := .quiet, ended := .noFrame, courtesyHold := false
                cadence := if f.cause = .joining ∧ s.sbi.participation = .active then 0 else s.sbi.cadence
                prompt := s.sbi.prompt || decide (f.cause = .joining ∧ s.sbi.participation = .active) }
            ∧ { t with sbi := s.sbi, pt := s.pt, mail := s.mail, cp := s.cp } = s)
      ∧ (f.sender = p.address → s.sbi.participation = .listening ∨ s.sbi.participation = .active →
        exec (.frameReceived bytes 0) s =
          .next
            (({ s with
                sbi :=
                  { s.sbi with
                    pair := .quiet, ended := .noFrame, participation := .muted, request := none, buffer := none
                    courtesyHold := false, prompt := false, critical := false } } : State).raise (.addressClash p.address .ownAddressHeard)))
      ∧ (f.sender = p.address → s.sbi.participation = .muted →
        exec (.frameReceived bytes 0) s = .next { s with sbi := { s.sbi with pair := .quiet, ended := .noFrame } }))
    ∧ (∀ (bytes : List Byte) (f : ReceivedFrame) (s : State), s.held = false → s.sbi.buffer = none →
      s.sbi.pair = .frame ∨ s.sbi.pair = .quiet ∧ s.sbi.ended ≠ .unreceived → receiveFrame bytes 0 = some f → s.params = none →
      s.sbi.participation = .dormant →
      exec (.frameReceived bytes 0) s =
        .next { s with sbi := { s.sbi with pair := .quiet, ended := .noFrame, courtesyHold := false } })
    ∧ ∀ (bytes : List Byte) (odd : Nat) (s : State),
      (s.sbi.buffer = none →
          s.held = true ∨ s.sbi.pair = .own ∨ s.sbi.pair = .unheard ∨ s.sbi.pair = .quiet ∧ s.sbi.ended = .unreceived →
          exec (.frameReceived bytes odd) s = .next { s with sbi := { s.sbi with pair := .quiet, ended := .noFrame } })
        ∧ (s.sbi.buffer.isSome = true → exec (.frameReceived bytes odd) s = .next s)

/-- A frame fails exactly where one of the checks does (R65): sync, length, CRC, kind and cause, sender, count, consistency, the
length by the model's reading, 13 bytes beyond the payload (log 28). One that fails is counted, and reported once until the next
edge (R66). -/
def Obligations.DamagedFramesAreCounted : Prop :=
  (∀ (bytes : List Byte) (odd : Nat),
    let length := byteAt bytes 4
    let count := byteAt bytes 11 / 16
    receiveFrame bytes odd = none
      ↔ bytes.take 2 ≠ [0xA5#8, 0xC3#8] ∨ odd ≠ 0 ∨ bytes.length ≠ 13 + length
        ∨ crcBytes ((bytes.drop 2).take (bytes.length - 4)) ≠ bytes.drop (bytes.length - 2) ∨ byteAt bytes 2 / 16 ≠ 10
        ∨ (∀ cause : Cause, byteAt bytes 2 % 16 ≠ cause.code) ∨ 31 < byteAt bytes 3 ∨ 8 < count ∨ length ≠ 2 + 8 * count)
    ∧ ∀ (bytes : List Byte) (odd : Nat) (s : State), s.held = false → s.sbi.buffer = none →
    s.sbi.pair = .frame ∨ s.sbi.pair = .quiet ∧ s.sbi.ended ≠ .unreceived → receiveFrame bytes odd = none →
    (s.sbi.busError = true →
        exec (.frameReceived bytes odd) s =
          .next
            { s with sbi := { s.sbi with pair := .quiet, ended := .noFrame, discards := min 65535 (s.sbi.discards + 1) } })
      ∧ (s.sbi.busError = false →
        exec (.frameReceived bytes odd) s =
          .next
            (({ s with
                sbi := { s.sbi with pair := .quiet, ended := .noFrame, discards := 0, busError := true } } : State).raise
              (.busError (min 65535 (s.sbi.discards + 1)))))

/-! ## The Scale Bus Interface -/

/-- A frame that a station can assemble passes the checks of a receiver and reads back as what was sent, every entry kept (R63,
R65, R80, R185, R186). A frame of payload length l has 13 + l bytes, by the model's reading of Table 11-1 (log 28). -/
def Obligations.ViewFrameRoundTrip : Prop :=
  ∀ f : ViewFrame, f.sound →
    ∃ g, receiveFrame f.bytes 0 = some g ∧ g.cause = f.cause ∧ g.sender = f.sender ∧ g.version = f.version ∧ g.t = f.t
      ∧ g.view =
        some
          ({ version := f.version, status := f.status, d := f.d, timeState := .set, pulseState := f.pulseState
             entries := f.entries }, [])

/-- A ready station on a quiet bus begins to drive the pair once its stagger of 4 × address bit times has passed, with a frame
assembled at that moment, and not before (R59, R64). -/
def Obligations.TransmissionBegins : Prop :=
  ∀ (waited : Nat) (p : Params) (cause : Cause) (s : State), s.held = false → s.params = some p →
    s.sbi.request = some cause →
    let ready :=
      s.sbi.participation = .active ∧ (cause = .changed → s.sbi.changedSent = false) ∧ s.sbi.courtesyHold = false
        ∧ s.sbi.pair = .quiet ∧ s.sbi.buffer = none ∧ 4 * p.address ≤ waited
    (ready →
        exec (.transmitStart waited) s =
          .next
            { s with
              sbi :=
                { s.sbi with
                  request := none, pair := .own, ended := .noFrame
                  buffer :=
                    some
                      { cause := cause, sender := p.address, version := s.ct.version, t := s.tb.t, status := s.ss.status
                        pulseState := s.tb.pulseState, d := if s.ss.status = .unknown then 0 else s.dNow
                        entries := s.ct.records.map (fun r => { key := r.key, state := r.state, stance := r.stance }) } } })
      ∧ (¬ready → exec (.transmitStart waited) s = .next s)

/-- What the pair carries (R57, R58): byte by byte, each least significant bit first, a 0 as dominant and then recessive and a 1
the other way round; a frame reads back as it is sent unless another station drives dominant where the station drives recessive. A
frame that has been sent and read back empties the buffer, ends the collision run, sets the courtesy hold, and raises JOINED where
it is JOINING; one that ends in a read-back mismatch gives its request back by rank and adds to the collision run, which at 8 mutes
the station (R60, R61, R64, R69 to R71, R73). A command that names the end that what the others drove does not make, or that comes
while no frame is being sent, does nothing (log 7). -/
def Obligations.TransmissionEnds : Prop :=
  (∀ (bytes : List Byte) (j i : Nat) (b : Byte), bytes[j]? = some b → i < 8 →
    (onPair bytes)[16 * j + 2 * i]? = some (if b.getLsbD i then .recessive else .dominant)
      ∧ (onPair bytes)[16 * j + 2 * i + 1]? = some (if b.getLsbD i then .dominant else .recessive))
    ∧ (∀ (f : ViewFrame) (others : List Level),
      f.readsBack others = true
        ↔ ∀ i : Nat, (onPair f.bytes)[i]? = some .recessive → ∀ level, others[i]? = some level → level = .recessive)
    ∧ ∀ (f : ViewFrame) (others : List Level) (s : State), s.held = false → s.sbi.buffer = some f →
    let done : State :=
      { s with
        sbi :=
          { s.sbi with
            buffer := none, collisionRun := 0, courtesyHold := true
            changedSent := s.sbi.changedSent || decide (f.cause = .changed) } }
    (f.readsBack others = true →
        exec (.frameCompleted others) s =
            .next (if f.cause = .joining then done.raise (.joined f.sender f.version) else done)
          ∧ exec (.readBackMismatch others) s = .next s)
      ∧ (f.readsBack others = false →
        exec (.frameCompleted others) s = .next s
          ∧ ∃ request,
            (request = s.sbi.request ∨ request = some f.cause)
              ∧ (∀ c ∈ s.sbi.request,
                (c.code < f.cause.code → request = some f.cause) ∧ (f.cause.code ≤ c.code → request = some c))
              ∧ (s.sbi.request = none → request = some f.cause)
              ∧ exec (.readBackMismatch others) s =
                .next
                  (if s.sbi.collisionRun < 7 then
                    { s with
                      sbi :=
                        { s.sbi with
                          buffer := none, request := request, collisionRun := s.sbi.collisionRun + 1, pair := .frame } }
                  else
                    ({ s with
                        sbi :=
                          { s.sbi with
                            buffer := none, request := none, collisionRun := 8, pair := .frame, participation := .muted
                            courtesyHold := false, prompt := false, critical := false } } : State).raise
                      (.addressClash f.sender .retryLimit)))
      ∧ ∀ u : State, u.sbi.buffer = none → exec (.frameCompleted others) u = .next u ∧ exec (.readBackMismatch others) u = .next u

/-- A frame start ends the quiet, a quiet instant restores it and is the end of the frame that stood on the pair (R57), and the
courtesy hold falls after 4 × address + 256 bit times of further quiet and not before (R57, R59, R60; log 22). The station drives
the pair only while it sends a frame of its own, and then it hears neither (R57). -/
def Obligations.QuietAndCourtesy : Prop :=
  (∀ s : State, s.sbi.buffer = none → s.sbi.pair = .quiet →
      exec .frameStartHeard s =
        .next { s with sbi := { s.sbi with pair := if s.held then .unheard else .frame, ended := .noFrame } })
    ∧ (∀ s : State, s.sbi.buffer = none →
      ∃ ended,
        exec .busQuietInstant s = .next { s with sbi := { s.sbi with pair := .quiet, ended := ended } }
          ∧ (s.sbi.pair = .quiet → ended = s.sbi.ended) ∧ (s.sbi.pair = .frame → ended = .heard)
          ∧ (s.sbi.pair = .own ∨ s.sbi.pair = .unheard → ended = .unreceived))
    ∧ (∀ s : State, (s.drivesPair = true ↔ s.sbi.buffer.isSome = true ∧ s.held = false)
      ∧ (s.sbi.buffer.isSome = true → exec .frameStartHeard s = .next s ∧ exec .busQuietInstant s = .next s))
    ∧ ∀ (quiet : Nat) (p : Params) (s : State), s.held = false → s.params = some p →
      (s.sbi.courtesyHold = true → s.sbi.pair = .quiet → 4 * p.address + 256 ≤ quiet →
          exec (.courtesySpanEnd quiet) s = .next { s with sbi := { s.sbi with courtesyHold := false } })
        ∧ (s.sbi.courtesyHold = false ∨ s.sbi.pair ≠ .quiet ∨ quiet < 4 * p.address + 256 →
          exec (.courtesySpanEnd quiet) s = .next s)

/-- The listen span is complete after 2 × (P + 1) edges with T SET, and the station is then ACTIVE with a JOINING request (R68,
R69); an ACTIVE station whose cadence count has reached its period makes a PERIODIC request, which a higher one absorbs (R71, R72).
Before that, neither does anything (log 6). At an edge (R66 to R69, R72 to R74) the bus-error flag is cleared, and the CHANGED-sent
flag of a station that is not DORMANT; a LISTENING station counts the edge and may complete its span; an ACTIVE one serves its
prompt, and otherwise advances its cadence, unless an arming notice of the same edge has restarted it (R72). The edge gives the
interface that work once, after the table notices that wait then (log 35), of which an arming notice of this edge's own passes is
one where it is given before that work and so waits no more after it (log 5). Of the notices that wait, the view notices are taken
before the arming notices, by the model's choice (log 52). -/
def Obligations.ListenSpanAndCadence : Prop :=
  (∀ (s : State) (tick : Nat) (events : List Event),
    ∃ (u : State) (armed : Bool),
      let t := s.edge tick events
      t.sbi = (u.busEdge armed).sbi
        ∧ (armed = true ↔ t.mail.laneArming ≠ s.mail.laneArming ∧ t.mail.arming = 0)
        ∧ u.tb = t.tb ∧ u.params = s.params
        ∧ (u.ct.records = s.ct.records ∧ armed = false ∨ u.ct.records = t.ct.records)
        ∧ u.sbi =
          { s.sbi with
            cadence :=
              if s.sbi.participation = .active ∧ (0 < s.mail.arming ∨ armed = true) then 0 else s.sbi.cadence
            request := u.sbi.request, critical := u.sbi.critical }
        ∧ (s.sbi.participation ≠ .active → u.sbi.request = s.sbi.request)
        ∧ (∀ c ∈ u.sbi.request, c = .changed ∨ s.sbi.request = some c)
        ∧ (s.sbi.participation = .active → 0 < s.mail.arming ∨ armed = true → u.sbi.critical = true ∧ u.sbi.request ≠ some .periodic))
    ∧ (∀ (s : State) (armed : Bool),
      (s.params = none ∨ s.sbi.participation = .dormant →
          s.busEdge armed = { s with sbi := { s.sbi with busError := false } })
        ∧ ∀ p : Params, s.params = some p →
          let b : ScaleBus := { s.sbi with busError := false, changedSent := false }
          let count := min (2 * (p.p + 1)) (s.sbi.listenCount + 1)
          let cadence := min 16 (s.sbi.cadence + 1)
          let asked : Option Cause := match s.sbi.request with | some c => some c | none => some .periodic
          (s.sbi.participation = .muted → s.busEdge armed = { s with sbi := b })
            ∧ (s.sbi.participation = .listening →
              (2 * (p.p + 1) ≤ count ∧ s.tb.timeState = .set →
                  s.busEdge armed =
                    { s with
                      sbi :=
                        { b with
                          listenCount := count, participation := .active, request := some .joining, cadence := 0
                          prompt := false, courtesyHold := false, collisionRun := 0
                          critical := s.ct.records.any (fun r => r.state == .armed) } })
                ∧ (count < 2 * (p.p + 1) ∨ s.tb.timeState = .unset →
                  s.busEdge armed = { s with sbi := { b with listenCount := count } }))
            ∧ (s.sbi.participation = .active →
              (s.sbi.prompt = true →
                  s.busEdge armed = { s with sbi := { b with request := asked, cadence := 0, prompt := false } })
                ∧ (s.sbi.prompt = false → armed = true → s.busEdge armed = { s with sbi := b })
                ∧ (s.sbi.prompt = false → armed = false →
                  ((if s.sbi.critical then p.pc + 1 else p.p + 1) ≤ cadence →
                      s.busEdge armed = { s with sbi := { b with request := asked, cadence := 0 } })
                    ∧ (cadence < (if s.sbi.critical then p.pc + 1 else p.p + 1) →
                      s.busEdge armed = { s with sbi := { b with cadence := cadence } }))))
    ∧ ∀ (p : Params) (s : State), s.held = false → s.params = some p →
    (s.sbi.participation = .listening → 2 * (p.p + 1) ≤ s.sbi.listenCount → s.tb.timeState = .set →
        exec .listenSpanComplete s =
          .next
            { s with
              sbi :=
                { s.sbi with
                  participation := .active, request := some .joining, cadence := 0, prompt := false, changedSent := false
                  courtesyHold := false, collisionRun := 0
                  critical := s.ct.records.any (fun r => r.state == .armed) } })
      ∧ (s.sbi.participation ≠ .listening ∨ s.sbi.listenCount < 2 * (p.p + 1) ∨ s.tb.timeState = .unset →
        exec .listenSpanComplete s = .next s)
      ∧ let period := if s.sbi.critical then p.pc + 1 else p.p + 1
        (s.sbi.participation = .active → period ≤ s.sbi.cadence →
            exec .cadencePeriodDue s =
              .next
                { s with
                  sbi :=
                    { s.sbi with
                      cadence := 0
                      request := match s.sbi.request with | some c => some c | none => some .periodic } })
          ∧ (s.sbi.participation ≠ .active ∨ s.sbi.cadence < period → exec .cadencePeriodDue s = .next s)

/-- A view notice makes a CHANGED request, which JOINING outranks, and refreshes the critical flag; an arming notice restarts the
cadence, withdraws a PERIODIC request and sets the flag; both in ACTIVE (R71 to R74). -/
def Obligations.TableNoticesOnTheBus : Prop :=
  ∀ s : State, s.held = false → s.sbi.participation = .active →
    (0 < s.mail.view →
        exec .viewNotice s =
          .next
            { s with
              sbi :=
                { s.sbi with
                  request := if s.sbi.request = some .joining then some .joining else some .changed
                  critical := s.ct.records.any (fun r => r.state == .armed) }
              mail := { s.mail with view := s.mail.view - 1 } })
      ∧ (0 < s.mail.arming →
        exec .armingNotice s =
          .next
            { s with
              sbi :=
                { s.sbi with
                  cadence := 0, critical := true
                  request := if s.sbi.request = some .periodic then none else s.sbi.request }
              mail := { s.mail with arming := s.mail.arming - 1 } })

/-- The laws of the bus are kept. Only an ACTIVE station holds a request or a frame to transmit, and a station is DORMANT exactly
while it holds no commission record (R57, R67, R68, R70, R174); the Peer Table holds one entry an address, in ascending order, each
below 32, none the station's own, none while DORMANT (R76). -/
def Obligations.BusLawsKept : Prop :=
  ∀ s t : State, s.transmitLaw → s.peerLaw → step s = .next t → t.transmitLaw ∧ t.peerLaw

/-! ## The Candidate Table -/

/-- Each of the five notices that the table takes gives it one pass (R44, R52, R85, R91, R92), and a pass changes the table, the
entry-invalid flag, the notices and the events, and nothing else. What the pass for the scale notice of an edge's work leaves is
what the lanes read for the second (R139; log 21). -/
def Obligations.TableNoticesTakeAPass : Prop :=
  (∀ s : State, s.held = false →
      (0 < s.mail.report →
          exec .reportNotice s =
            .next (({ s with mail := { s.mail with report := s.mail.report - 1 } } : State).pass none))
        ∧ (0 < s.mail.operator →
          exec .operatorNotice s =
            .next (({ s with mail := { s.mail with operator := s.mail.operator - 1 } } : State).pass none))
        ∧ (∀ addresses rest, s.mail.peer = addresses :: rest →
          exec .peerNotice s = .next (({ s with mail := { s.mail with peer := rest } } : State).pass none))
        ∧ (∀ notice rest, s.mail.candidateScale = notice :: rest →
          let t := ({ s with mail := { s.mail with candidateScale := rest } } : State).pass none
          exec .candidateScaleNotice s =
            .next
              (if notice.ofEdge then
                { t with ct := { t.ct with reading := t.ct.records.filter (fun r => r.state != .proposed) } }
              else t))
        ∧ (0 < s.mail.timeBase →
          exec .timeBaseNotice s =
            .next (({ s with mail := { s.mail with timeBase := s.mail.timeBase - 1 } } : State).pass none)))
    ∧ ∀ (s : State) (edge : Option LoadIndication),
      let t := s.pass edge
      t.pt.entries = s.pt.entries ∧ { t with ct := s.ct, pt := s.pt, mail := s.mail, cp := s.cp } = s

/-- What a pass leaves of each record, at an edge or at another event (R98 to R105): its origins are those that offer it; its
stance and its tallies are formed from the offers as they stand; an ACCEPTED record has the quorum, is ahead, and is not denied; a
record that is not ARMED has an origin and lies more than two seconds ahead. A source offers a key in good standing alone (R36,
R98), and the entry decides by its item with the key. The own stance is the operator's, or else weighs the sources in good standing
that offer the key against those that do not, which count from the dissent horizon on (R99, R100). A listing peer is LIVE and not
time-split, a voting peer not scale-split besides, a scale peer a listing one with a CONFIRMED view (R84), and the tallies count
the voting peers by their stances and by their ARMED entries (R101). -/
def Obligations.RecordsAfterAPass : Prop :=
  (∀ e : PeerEntry,
    (e.listing = true ↔ e.state = .live ∧ e.timeSplit = false)
      ∧ (e.voting = true ↔ e.state = .live ∧ e.timeSplit = false ∧ e.scaleSplit = false)
      ∧ (e.scalePeer = true ↔ e.state = .live ∧ e.timeSplit = false ∧ ∃ v, e.view = some v ∧ v.status = .confirmed)
      ∧ e.entries = (match e.view with | some v => v.entries | none => []))
    ∧ (∀ (s : State) (key : Key),
      let counted (lists : ViewEntry → Bool) : Nat :=
        (s.pt.entries.filter (fun e =>
          decide (e.state = .live ∧ e.timeSplit = false ∧ e.scaleSplit = false) && e.entries.any lists)).length
      let standing : List SourceRecord :=
        s.si.sources.filter (fun r => decide (r.status = .fresh ∧ r.standing = .current ∧ r.unusable = false))
      (∀ i, i ∈ s.offering key
          ↔ ∃ r, s.si.sources[i]? = some r ∧ r.status = .fresh ∧ r.standing = .current ∧ r.unusable = false ∧ key ∈ r.keys)
        ∧ (∀ d, s.decisionOn key = some d
          ↔ ∃ before i after, s.si.operator = before ++ i :: after ∧ i.key = key ∧ i.decision = d
            ∧ ∀ x ∈ before, x.key ≠ key)
        ∧ (s.decisionOn key = none ↔ ∀ i ∈ s.si.operator, i.key ≠ key)
        ∧ (∀ stance, s.votes key stance = counted (fun v => decide (v.key = key ∧ v.stance = stance)))
        ∧ s.armedPeers key = counted (fun v => decide (v.key = key ∧ v.state = .armed))
        ∧ (∀ e, e ∈ s.listingPeers ↔ e ∈ s.pt.entries ∧ e.listing = true)
        ∧ ∀ (epoch : Int) (p : Params), s.params = some p →
          let r := (standing.filter (fun x => decide (key ∈ x.keys))).length
          let n := if epoch - p.hd * 3600 ≤ (s.tb.t : Int) then standing.length - r else 0
          (s.decisionOn key = some .affirm → s.stanceOn key epoch = .witness)
            ∧ (s.decisionOn key = some .deny → s.stanceOn key epoch = .dissent)
            ∧ (s.decisionOn key = none →
              (n < r → s.stanceOn key epoch = .witness) ∧ (r < n → s.stanceOn key epoch = .dissent)
                ∧ (r = n → s.stanceOn key epoch = .abstain)))
    ∧ ∀ (s : State) (edge : Option LoadIndication), ∀ r ∈ (s.pass edge).ct.records,
    r.sources = s.offering r.key ∧ r.operator = s.decisionOn r.key
      ∧ r.peers = (s.listingPeers.filter (fun e => e.entries.any (fun v => v.key == r.key))).map (·.address)
      ∧ r.stance = s.stanceOn r.key r.epoch
      ∧ r.pro = (if r.stance = .witness then 1 else 0) + s.votes r.key .witness
      ∧ r.con = (if r.stance = .dissent then 1 else 0) + s.votes r.key .dissent
      ∧ r.peerArmed = s.armedPeers r.key
      ∧ (r.state = .accepted → (∃ p ∈ s.params, p.qmin ≤ r.pro) ∧ r.con < r.pro ∧ r.operator ≠ some .deny)
      ∧ (r.state ≠ .armed →
        (s.tb.t : Int) < r.epoch - 2 ∧ (r.sources ≠ [] ∨ r.operator = some .affirm ∨ r.peers ≠ []))

/-- The view version counts the changes of the view (R114), each with a view notice (R115): a pass that leaves the view as it was
last compared leaves the version; any other raises it by one, from 65,535 to 0. -/
def Obligations.TheViewVersionCountsChanges : Prop :=
  ∀ (s : State) (edge : Option LoadIndication),
    let t := s.pass edge
    let view : View :=
      { records := t.ct.records.map (fun r => { key := r.key, state := r.state, stance := r.stance }), d := s.ss.d
        status := s.ss.status, timeState := s.tb.timeState, pulseState := s.tb.pulseState }
    t.ct.lastView = view
      ∧ (view = s.ct.lastView → t.ct.version = s.ct.version ∧ t.mail.view = s.mail.view)
      ∧ (view ≠ s.ct.lastView → t.ct.version = (s.ct.version + 1) % 65536 ∧ t.mail.view = s.mail.view + 1)

/-- The steps of a pass, in their order (R91), and what those do that admit and arm. Of the offered keys no record holds (R93),
each in turn: one that is barred, or that lies less than three seconds ahead, is passed over (R94, R97); one that is invalid is
passed over, and reported as the first listing peer lists it, once until the next edge (R95); any other enters the table in its
place, PROPOSED, with its origin, over the last PROPOSED record where the table is full and that record's epoch is later, and where
there is no such record it is refused, with TABLE_FULL once until the next edge (R94, R96). At an edge the ACCEPTED records in the
arm window are armed by TALLY, and a record accepted in its window by LATE, each rival group settled by its pro (R102, R106 to
R108). A key that Qmin voting peers show ARMED is armed by FOLLOW, from the table or admitted for it, over its ACCEPTED rivals,
unless a rival is ARMED, the operator denies it or it has been applied (R109); into a full table it comes as any other does, over
the last PROPOSED record or not at all, with TABLE_FULL. A pass that has armed records gives one arming notice to the Scale Bus
Interface and to the lanes, which names each with its epoch and window end (R115). By the model's reading an invalid key is
reported before the bar and the lateness are looked at (log 18), a settlement takes in the whole rival group, a followed absent key
has its tallies formed at once (log 19), and a record ACCEPTED before that wins a settlement of step 10 is armed by LATE (log 53).
-/
def Obligations.CandidatesAreAdmittedAndArmed : Prop :=
  (∀ (s : State) (edge : Option LoadIndication),
    let opened := s.stepEpochs.stepBarred.stepExpiry.stepAdmission.stepTallies.stepWithdrawal.stepDemotion
    let accepted := (if edge.isSome then opened.stepArm else opened).stepFollow.stepAcceptance
    (s.pass edge).ct.records = (match edge with | some load => (accepted.stepDue load).ct.records | none => accepted.ct.records)
      ∧ (let armed : List Candidate :=
          accepted.ct.records.filter (fun r =>
            r.state == .armed && !s.ct.records.any (fun b => b.key == r.key && b.state == .armed))
        let d : Nat := match s.ss.d with | some d => d | none => 10
        (armed = [] → (s.pass edge).mail.arming = s.mail.arming ∧ (s.pass edge).mail.laneArming = s.mail.laneArming)
          ∧ (armed ≠ [] →
            (s.pass edge).mail.arming = s.mail.arming + 1
              ∧ (s.pass edge).mail.laneArming =
                s.mail.laneArming
                  ++ [{ armed := armed.map (fun r => { key := r.key, epoch := r.epoch, x := r.key.windowEnd d }), t := s.tb.t }]))
      ∧ s.stepAdmission = s.newKeys.foldl State.considerKey s
      ∧ ∀ key,
        key ∈ s.newKeys
          ↔ (key ∈ s.sourceKeys ∨ (∃ i ∈ s.si.operator, i.decision = .affirm ∧ i.key = key)
              ∨ ∃ e ∈ s.pt.entries, e.listing = true ∧ ∃ v ∈ e.entries, v.key = key)
            ∧ ∀ r ∈ s.ct.records, r.key ≠ key)
    ∧ (∀ (s : State) (key : Key),
      (s.tb.timeState = .unset ∨ s.ss.status = .unknown → s.considerKey key = s)
        ∧ ∀ d, s.tb.timeState = .set → s.ss.status ≠ .unknown → s.ss.d = some d →
          (∀ (before after : List PeerEntry) (e : PeerEntry) (first last : List ViewEntry) (v : ViewEntry),
              key.valid (some d) = false → s.pt.entries.filter PeerEntry.listing = before ++ e :: after →
              (∀ x ∈ before, ∀ w ∈ x.entries, w.key ≠ key) → e.entries = first ++ v :: last → v.key = key →
              (∀ w ∈ first, w.key ≠ key) →
              s.considerKey key =
                if s.pt.entryInvalid then s
                else
                  ({ s with pt := { s.pt with entryInvalid := true } } : State).raise
                    (.peerEntryInvalid e.address (first.length + 1) key.kindTarget.toNat key.day))
            ∧ (key.valid (some d) = true → (∃ b ∈ s.ct.barred, b.key = key) ∨ key.epoch d - 2 ≤ (s.tb.t : Int) →
              s.considerKey key = s)
            ∧ (key.valid (some d) = true → (∀ b ∈ s.ct.barred, b.key ≠ key) → (s.tb.t : Int) < key.epoch d - 2 →
              ∃ origin : Origin,
                (key ∈ s.sourceKeys → origin = .source)
                  ∧ (key ∉ s.sourceKeys → (∃ i ∈ s.si.operator, i.decision = .affirm ∧ i.key = key) → origin = .operator)
                  ∧ (key ∉ s.sourceKeys → (∀ i ∈ s.si.operator, i.decision = .affirm → i.key ≠ key) → origin = .peer)
                  ∧ let record : Candidate :=
                      { key := key, epoch := key.epoch d, state := .proposed, armedBy := none, stance := .abstain, pro := 0
                        con := 0, peerArmed := 0, sources := [], operator := none, peers := [], firstSeen := s.tb.t }
                    let enters (u t : State) : Prop :=
                      ∃ before after,
                        u.ct.records = before ++ after
                          ∧ (∀ x ∈ before, precedes (key, record.epoch) (x.key, x.epoch) = false)
                          ∧ (∀ x ∈ after.head?, precedes (key, record.epoch) (x.key, x.epoch) = true)
                          ∧ t =
                            ({ u with ct := { u.ct with records := before ++ record :: after } } : State).raise
                              (.candidateNew key origin)
                    let refused : Prop :=
                      s.considerKey key =
                        if s.ct.tableFull then s
                        else ({ s with ct := { s.ct with tableFull := true } } : State).raise (.tableFull key)
                    (s.ct.records.length < 8 → enters s (s.considerKey key))
                      ∧ (8 ≤ s.ct.records.length → (∀ x ∈ s.ct.records, x.state ≠ .proposed) → refused)
                      ∧ ∀ before x after, 8 ≤ s.ct.records.length → s.ct.records = before ++ x :: after →
                        x.state = .proposed → (∀ y ∈ after, y.state ≠ .proposed) → s.ct.keysLaw →
                        (key.epoch d < x.epoch →
                            enters
                              (({ s with ct := { s.ct with records := before ++ after } } : State).raise
                                (.candidateDropped x.key))
                              (s.considerKey key))
                          ∧ (x.epoch ≤ key.epoch d → refused)))
    ∧ ∀ (s : State) (p : Params), s.params = some p → s.ct.keysLaw →
      let window (epoch : Int) : Prop := epoch - p.ha ≤ (s.tb.t : Int) ∧ (s.tb.t : Int) < epoch - 2
      s.stepArm.settledAs .tally s.ct.records (fun r => r.state = .accepted ∧ window r.epoch)
        ∧ (∃ accepts : Candidate → Bool,
          (∀ c ∈ s.ct.records,
              accepts c = true
                ↔ c.state = .proposed ∧ p.qmin ≤ c.pro ∧ c.con < c.pro ∧ c.operator ≠ some .deny
                  ∧ ∀ r ∈ s.ct.records, r.key.rival c.key = true → r.state ≠ .armed)
            ∧ s.stepAcceptance.settledAs .late
              (s.ct.records.map (fun c => if accepts c then { c with state := .accepted } else c))
              (fun r => (∃ c ∈ s.ct.records, c.key = r.key ∧ accepts c = true) ∧ window r.epoch)
            ∧ ∀ c ∈ s.ct.records, accepts c = true →
              ∃ e ∈ s.stepAcceptance.cp.queue, e.event = .candidateAccepted c.key c.pro c.con)
        ∧ ∀ key : Key,
          let called (epoch : Int) : Prop :=
            window epoch ∧ p.qmin ≤ s.armedPeers key ∧ (∀ r ∈ s.ct.records, r.key.rival key = true → r.state ≠ .armed)
              ∧ s.decisionOn key ≠ some .deny ∧ ∀ b ∈ s.ct.barred, b.key = key → b.reason ≠ .applied
          (∀ c ∈ s.ct.records, c.key = key →
              (c.state = .armed ∨ ¬called c.epoch → s.followHeld key = s)
                ∧ (c.state ≠ .armed → called c.epoch →
                  let t := s.followHeld key
                  t.ct.records =
                      (s.ct.records.filter (fun r => !(r.key.rival key && r.state == .accepted))).map
                        (fun r => if r.key = key then { r with state := .armed, armedBy := some .follow } else r)
                    ∧ (∃ e ∈ t.cp.queue, e.event = .candidateArmed key .follow)
                    ∧ ∀ r ∈ s.ct.records, r.key.rival key = true → r.state = .accepted →
                      (∃ b ∈ t.ct.barred, b.key = r.key ∧ b.reason = .conflicted)
                        ∧ ∃ e ∈ t.cp.queue, e.event = .candidateConflict r.key .rivalArmed))
            ∧ ∀ d, (∀ r ∈ s.ct.records, r.key ≠ key) → s.ss.d = some d →
              let open_ : Prop := s.tb.timeState = .set ∧ s.ss.status ≠ .unknown ∧ key.valid (some d) = true
              (¬(called (key.epoch d) ∧ open_) → s.followAbsent key = s)
                ∧ (called (key.epoch d) → open_ → s.ct.records.length < 8 →
                  let t := s.followAbsent key
                  (∃ r ∈ t.ct.records,
                      r.key = key ∧ r.state = .armed ∧ r.armedBy = some .follow ∧ r.firstSeen = s.tb.t
                        ∧ r.peerArmed = s.armedPeers key)
                    ∧ (∀ r ∈ s.ct.records, (r.key.rival key = false ∨ r.state ≠ .accepted) → r ∈ t.ct.records)
                    ∧ (∀ b ∈ t.ct.barred, b.key ≠ key)
                    ∧ (∃ e ∈ t.cp.queue, e.event = .candidateNew key .follow)
                    ∧ ∃ e ∈ t.cp.queue, e.event = .candidateArmed key .follow)
                ∧ (called (key.epoch d) → open_ → 8 ≤ s.ct.records.length →
                  let refused : Prop :=
                    s.followAbsent key =
                      if s.ct.tableFull then s
                      else ({ s with ct := { s.ct with tableFull := true } } : State).raise (.tableFull key)
                  ((∀ x ∈ s.ct.records, x.state ≠ .proposed) → refused)
                    ∧ ∀ before x after, s.ct.records = before ++ x :: after → x.state = .proposed →
                      (∀ y ∈ after, y.state ≠ .proposed) →
                      (x.epoch ≤ key.epoch d → refused)
                        ∧ (key.epoch d < x.epoch →
                          let t := s.followAbsent key
                          (∃ r ∈ t.ct.records, r.key = key ∧ r.state = .armed ∧ r.armedBy = some .follow)
                            ∧ (∀ r ∈ t.ct.records, r.key ≠ x.key)
                            ∧ (∀ r ∈ before ++ after, (r.key.rival key = false ∨ r.state ≠ .accepted) → r ∈ t.ct.records)
                            ∧ (∃ e ∈ t.cp.queue, e.event = .candidateDropped x.key)
                            ∧ ∃ e ∈ t.cp.queue, e.event = .candidateArmed key .follow))

/-- The laws of the table are kept: at most 8 records, no two of one key (R89); no two rivals ARMED together (R107); at most 8
barred keys (R97). -/
def Obligations.TableLawKept : Prop := ∀ s t : State, s.tableLaw → step s = .next t → t.tableLaw

/-- The third law of the table (R110): an ARMED record stays ARMED in the table, or leaves it at an edge as APPLIED, handed over to
Scale State, or is lost to a reset. -/
def Obligations.ArmedLeavesOnlyApplied : Prop :=
  ∀ (c : Instr) (rest : List Instr) (s t : State), s.tableLaw → s.pending = c :: rest → step s = .next t → c ≠ .resetEnd →
    ∀ r ∈ s.ct.records, r.state = .armed →
      (∃ r' ∈ t.ct.records, r'.key = r.key ∧ r'.state = .armed)
        ∨ (c.opensSecond ∧ ∃ h, t.mail.handOver = s.mail.handOver ++ [h] ∧ ∃ e, (r.key, e) ∈ h.due)

/-! ## Scale State -/

/-- A hand-over of one due change, with an empty tally (R123 to R128, R133 to R136). An insertion raises D by one and marks the
second where it falls at its epoch; a deletion lowers D by one; one that would take D beyond 10..255 is void; an offset set writes
D; a local shift writes its zone. Each is listed as applied and reported by CHANGE_APPLIED; one that is not a shift and not void is
told to Source Intake; a changed D is told to the three blocks, with the D and the status now held; each that is not void posts its
history record, of the scale as it then stands (R134); and the second notice describes the second. -/
def Obligations.ChangesAreApplied : Prop :=
  ∀ (s : State) (h : HandOver) (rest : List HandOver) (k : Key) (epoch : Int) (d : Nat), s.held = false →
    s.mail.handOver = h :: rest → h.due = [(k, epoch)] → s.ss.tally = [] → s.ss.d = some d →
    ∃ t,
      exec .handOver s = .next t ∧ t.mail.handOver = rest ∧ t.ss.status = s.ss.status
        ∧ { t with ss := s.ss, hs := s.hs, mail := s.mail, cp := s.cp } = s
        ∧ (∃ n, t.mail.second = s.mail.second ++ [n] ∧ n.t = h.t ∧ n.timeState = h.timeState ∧ n.pulseState = h.pulseState
          ∧ n.load = h.load ∧ n.d = t.ss.d ∧ n.status = t.ss.status ∧ n.zones = t.ss.zones ∧ n.marker = t.ss.marker
          ∧ n.utcStep = t.ss.utcStep ∧ n.zoneSteps = t.ss.zoneSteps ∧ n.applied = t.ss.applied)
        ∧ (t.ss.d ≠ s.ss.d →
          let notice : ScaleNotice := { d := t.ss.d, status := t.ss.status, ofEdge := true }
          t.mail.candidateScale = s.mail.candidateScale ++ [notice] ∧ t.mail.sourceScale = s.mail.sourceScale ++ [notice]
            ∧ t.mail.peerTableScale = s.mail.peerTableScale ++ [notice])
        ∧ (t.ss.d = s.ss.d → t.mail.candidateScale = s.mail.candidateScale)
        ∧ (let stepped : Prop := ∃ delta, h.load = .stepped delta
          let posted (kind : HistoryKind) (value : Int) : Prop :=
            ∀ after ∈ t.ss.d,
              t.hs =
                (s.postRecord
                  { kind := kind, target := k.target, epochT := h.t, value := value, dAfter := after, zones := t.ss.zones }).hs
          let reported (after : Int) (void step : Bool) : Prop :=
            ({ event := .changeApplied k after void step, t := if h.timeState = .set then some h.t else none } : EventRecord)
              ∈ t.cp.queue
          (k.kind = .leapInsert → d < 255 →
              t.ss.d = some (d + 1) ∧ (t.ss.marker = true ↔ ¬stepped ∧ (h.t : Int) = epoch)
                ∧ (t.ss.utcStep = true ↔ stepped ∨ epoch < (h.t : Int)) ∧ t.ss.zones = s.ss.zones
                ∧ t.ss.applied = [{ key := k, void := false }]
                ∧ t.mail.appliedChange = s.mail.appliedChange ++ [(.leapInsert, d)] ∧ posted .leapInsert 0
                ∧ reported (d + 1 : Nat) false t.ss.utcStep)
            ∧ (k.kind = .leapDelete → 10 < d →
              t.ss.d = some (d - 1) ∧ t.ss.marker = false ∧ (t.ss.utcStep = true ↔ stepped ∨ epoch < (h.t : Int))
                ∧ t.ss.zones = s.ss.zones ∧ t.ss.applied = [{ key := k, void := false }]
                ∧ t.mail.appliedChange = s.mail.appliedChange ++ [(.leapDelete, d)] ∧ posted .leapDelete 0
                ∧ reported (d - 1 : Nat) false t.ss.utcStep)
            ∧ (k.kind = .leapInsert ∧ 255 ≤ d ∨ k.kind = .leapDelete ∧ d ≤ 10 →
              t.ss.d = some d ∧ t.ss.marker = false ∧ (t.ss.utcStep = true ↔ stepped) ∧ t.ss.zones = s.ss.zones
                ∧ t.ss.applied = [{ key := k, void := true }] ∧ t.mail.appliedChange = s.mail.appliedChange ∧ t.hs = s.hs
                ∧ reported d true t.ss.utcStep)
            ∧ (∀ v, k.kind = .offsetSet → k.value = some v →
              t.ss.d = some v.toNat ∧ t.ss.marker = false ∧ t.ss.utcStep = true ∧ t.ss.zones = s.ss.zones
                ∧ t.ss.applied = [{ key := k, void := false }]
                ∧ t.mail.appliedChange = s.mail.appliedChange ++ [(.offsetSet, d)] ∧ posted .offsetSet v
                ∧ reported v false true)
            ∧ ∀ z v, k.kind = .localShift → k.target = .zone z → k.value = some v → z < 4 →
              t.ss.d = some d ∧ t.ss.marker = false ∧ (t.ss.utcStep = true ↔ stepped) ∧ t.ss.zones = s.ss.zones.set z v
                ∧ (∀ w, w < 4 → (t.ss.zoneSteps[w]? = some true ↔ stepped ∨ w = z))
                ∧ t.ss.applied = [{ key := k, void := false }] ∧ t.mail.appliedChange = s.mail.appliedChange
                ∧ posted .localShift v ∧ reported v false true)

/-- A hand-over with nothing due, of a commissioned station (R130 to R132). With a status other than CONFIRMED the value that leads
the tally is acquired. With CONFIRMED a leading value other than D is timed, edge by edge, and D yields to it at the yield delay.
SCALE_YIELDED does what the edge does where the timer stands at the delay (log 6). A yield, and an acquisition that moves D or is
the first, posts its history record, and nothing else does (R130, R132, R134). -/
def Obligations.AcquisitionAndYield : Prop :=
  (∀ (s : State) (p : Params) (h : HandOver) (rest : List HandOver), s.held = false → s.params = some p →
      s.mail.handOver = h :: rest → h.due = [] →
      ∃ t,
        exec .handOver s = .next t ∧ t.mail.handOver = rest ∧ t.ss.zones = s.ss.zones ∧ t.ss.applied = []
          ∧ t.ss.tally = s.ss.tally ∧ t.ss.marker = false
          ∧ (s.ss.status ≠ .confirmed → s.ss.leader p.qmin = none →
            t.ss.d = s.ss.d ∧ t.ss.status = s.ss.status ∧ t.ss.yieldValue = none ∧ t.ss.yieldTimer = 0 ∧ t.hs = s.hs)
          ∧ (∀ v n, s.ss.status ≠ .confirmed → s.ss.leader p.qmin = some (v, n) →
            t.ss.d = some v ∧ t.ss.status = .confirmed ∧ t.ss.yieldValue = none ∧ t.ss.yieldTimer = 0
              ∧ (t.ss.utcStep = true
                ↔ (∃ delta, h.load = .stepped delta) ∨ s.ss.status = .stored ∧ s.ss.d ≠ some v)
              ∧ (s.ss.status = .unknown ∨ s.ss.d ≠ some v →
                t.hs =
                  (s.postRecord
                    { kind := .acquired, target := .utc, epochT := h.t, value := (v : Nat), dAfter := v, zones := s.ss.zones }).hs)
              ∧ (s.ss.status = .stored → s.ss.d = some v → t.hs = s.hs)
              ∧ ∃ r ∈ t.cp.queue, r.event = .scaleConfirmed v n s.ss.status)
          ∧ (s.ss.status = .confirmed → (∀ l ∈ s.ss.leader p.qmin, s.ss.d = some l.1) →
            t.ss.d = s.ss.d ∧ t.ss.status = .confirmed ∧ t.ss.yieldValue = none ∧ t.ss.yieldTimer = 0 ∧ t.hs = s.hs)
          ∧ ∀ v n, s.ss.status = .confirmed → s.ss.leader p.qmin = some (v, n) → s.ss.d ≠ some v →
            t.ss.status = .confirmed
              ∧ (let timer := if s.ss.yieldValue = some v then s.ss.yieldTimer + 1 else 1
                (timer ≠ p.yieldDelay →
                    t.ss.d = s.ss.d ∧ t.ss.yieldValue = some v ∧ t.ss.yieldTimer = timer ∧ t.hs = s.hs)
                  ∧ (timer = p.yieldDelay →
                    t.ss.d = some v ∧ t.ss.yieldValue = none ∧ t.ss.yieldTimer = 0 ∧ t.ss.utcStep = true
                      ∧ t.hs =
                        (s.postRecord
                          { kind := .yielded, target := .utc, epochT := h.t, value := (v : Nat), dAfter := v
                            zones := s.ss.zones }).hs
                      ∧ ∀ d ∈ s.ss.d, ∃ r ∈ t.cp.queue, r.event = .scaleYielded d v n (s.ss.countOf d))))
    ∧ ∀ (s : State) (p : Params) (v : Nat), s.held = false → s.params = some p → s.ss.status = .confirmed →
      s.ss.yieldValue = some v → s.ss.yieldTimer = p.yieldDelay →
      ∃ t,
        exec .scaleYielded s = .next t
          ∧ t.ss =
            { s.ss with d := some v, utcStep := true, marker := false, yieldValue := none, yieldTimer := 0 }
          ∧ t.hs =
            (s.postRecord
              { kind := .yielded, target := .utc, epochT := s.tb.t, value := (v : Nat), dAfter := v, zones := s.ss.zones }).hs
          ∧ (∀ d ∈ s.ss.d, ∃ r ∈ t.cp.queue, r.event = .scaleYielded d v (s.ss.countOf v) (s.ss.countOf d))
          ∧ { t with ss := s.ss, hs := s.hs, mail := s.mail, cp := s.cp } = s

/-- The scale tally (R129 to R131): a source notice or a peer scale notice has it formed afresh, and it then counts for each value
the scale peers that carry it, and the own station where more than half of its offered values are that one; the leader is the value
with at least so many stations and more than every other. -/
def Obligations.TheTallyCountsStations : Prop :=
  ∀ (s : State), s.held = false →
    (∀ v, s.ownValue = some v ↔ (s.si.offeredDs.filterMap id).length < 2 * (s.si.offeredDs.filterMap id).count v)
      ∧ let formed (t : State) : Prop :=
          t.ss = { s.ss with tally := t.ss.tally }
            ∧ (∀ v,
              t.ss.countOf v = (if s.ownValue = some v then 1 else 0) + (s.pt.scaleOffer.map (fun x => x.2)).count v)
            ∧ ∀ q v n,
              t.ss.leader q = some (v, n)
                ↔ 0 < n ∧ q ≤ n ∧ t.ss.countOf v = n ∧ ∀ w, w ≠ v → t.ss.countOf w < n
        (0 < s.mail.source →
            ∃ t,
              exec .sourceNotice s = .next t ∧ formed t ∧ t.mail = { s.mail with source := s.mail.source - 1 }
                ∧ { t with ss := s.ss, mail := s.mail } = s)
          ∧ (0 < s.mail.peerScale →
            ∃ t,
              exec .peerScaleNotice s = .next t ∧ formed t ∧ t.mail = { s.mail with peerScale := s.mail.peerScale - 1 }
                ∧ { t with ss := s.ss, mail := s.mail } = s)

/-- The laws of the offset and of the zones are kept (R120, R121), and nothing moves D or the scale status but the work of an edge,
a yield, the end of the scan and a reset (R2). -/
def Obligations.ScaleLawKept : Prop :=
  (∀ s t : State, s.scaleLaw → step s = .next t → t.scaleLaw)
    ∧ ∀ (c : Instr) (s t : State), exec c s = .next t → c ≠ .handOver → c ≠ .scaleYielded → c ≠ .scanEnd → c ≠ .resetEnd →
      t.ss.d = s.ss.d ∧ t.ss.status = s.ss.status

/-! ## The Calendar Unit and the lanes -/

/-- The calendar counts days (R5, R7, R8): day 0 is Saturday 1972-01-01, each day is followed by the next day of its month, or the
first of the next month or year, with the lengths of the civil months, and the time of day runs through the day; a second 59 of an
inserted second reads 60, a label out of range reads as the last second of 2099 (R9), and fields are packed in BCD (R10). Keys:
validity (R11, R12), where a test on D is left out without a D (R53), the epoch (R13), the window end (R15), rivals (R16), and the
first day of the month that follows a label's (R17). -/
def Obligations.TheCalendarCountsDays : Prop :=
  (convertLabel 0 false).fields =
      { year := 1972, month := 1, day := 1, hour := 0, minute := 0, second := 0, weekday := 6 }
    ∧ (∀ n : Nat, n < 46751 →
      let a := (convertLabel ((86400 * n : Nat) : Int) false).fields
      let length :=
        if a.month = 2 then (if a.year % 4 = 0 then 29 else 28)
        else if a.month = 4 ∨ a.month = 6 ∨ a.month = 9 ∨ a.month = 11 then 30
        else 31
      (convertLabel ((86400 * (n + 1) : Nat) : Int) false).fields =
        { hour := 0, minute := 0, second := 0, weekday := if a.weekday = 7 then 1 else a.weekday + 1
          year := if a.day = length ∧ a.month = 12 then a.year + 1 else a.year
          month := if a.day = length then (if a.month = 12 then 1 else a.month + 1) else a.month
          day := if a.day = length then 1 else a.day + 1 })
    ∧ (∀ n h m x : Nat, n < 46752 → h < 24 → m < 60 → x < 60 →
      convertLabel ((86400 * n + 3600 * h + 60 * m + x : Nat) : Int) false =
        { outOfRange := false
          fields :=
            { (convertLabel ((86400 * n : Nat) : Int) false).fields with hour := h, minute := m, second := x } })
    ∧ (∀ (label : Int) (inserted : Bool),
      (0 ≤ label → label < 4039372800 →
          (convertLabel label true).fields =
            { (convertLabel label false).fields with
              second :=
                if (convertLabel label false).fields.second = 59 then 60 else (convertLabel label false).fields.second })
        ∧ (label < 0 ∨ 4039372800 ≤ label →
          convertLabel label inserted =
              { outOfRange := true
                fields := { year := 2099, month := 12, day := 31, hour := 23, minute := 59, second := 59, weekday := 4 } }
            ∧ nextMonthDay label = none))
    ∧ (∀ n : Nat, n < 46752 → ∀ x : Nat, x < 86400 →
      ∃ first,
        nextMonthDay ((86400 * n + x : Nat) : Int) = some first ∧ n < first ∧ first ≤ 46752
          ∧ (first < 46752 → (convertLabel ((86400 * first : Nat) : Int) false).fields.day = 1)
          ∧ ∀ j : Nat, n < j → j < first → (convertLabel ((86400 * j : Nat) : Int) false).fields.day ≠ 1)
    ∧ (∀ v : Nat, v < 100 → (bcd v).toNat = 16 * (v / 10) + v % 10)
    ∧ (∀ (k : Key) (d : Option Nat),
      let firstDay : Prop := k.day < 46752 ∧ (convertLabel ((86400 * k.day : Nat) : Int) false).fields.day = 1
      k.valid d = true
        ↔ match k.kind with
          | .leapInsert => k.target = .utc ∧ k.value = none ∧ firstDay ∧ 1 ≤ k.day ∧ ∀ x ∈ d, x + 1 ≤ 255
          | .leapDelete => k.target = .utc ∧ k.value = none ∧ firstDay ∧ ∀ x ∈ d, 11 ≤ x
          | .offsetSet => k.target = .utc ∧ (∃ v, k.value = some v ∧ 10 ≤ v ∧ v ≤ 255) ∧ 1 ≤ k.day ∧ k.day < 46752
          | .localShift =>
            (∃ z, k.target = .zone z ∧ z < 4) ∧ k.day < 67322880
              ∧ ∃ v, k.value = some v ∧ -720 ≤ v ∧ v ≤ 840 ∧ v % 15 = 0)
    ∧ (∀ (k : Key) (d : Nat),
      k.epoch d =
          (match k.kind with
            | .leapInsert | .offsetSet => (k.day : Int) * 86400 + ((d : Int) - 10)
            | .leapDelete => (k.day : Int) * 86400 + ((d : Int) - 11)
            | .localShift => (k.day : Int) * 60 + ((d : Int) - 10))
        ∧ k.windowEnd d = k.epoch d + (if k.kind = .leapInsert then 1 else 0))
    ∧ ∀ a b : Key,
      a.rival b = true ↔ a.target = b.target ∧ a.day = b.day ∧ (a.kind ≠ b.kind ∨ a.value ≠ b.value)

/-- A second notice with the time SET forms one stamp for every lane in use, for its second, and sends them (R139 to R143, R152,
R153): a TAI lane counts T + 10; UTC and LOCAL lanes count their labels; while the scale is UNKNOWN a lane other than TAI is
UNSCALED, and a TAI lane carries a D of 0 and is judged, with its calendar, on T + 10 alone; a marked second of a UTC lane whose
label ends a minute reads second 60. A notice with the time UNSET or of a part with
no lane forms nothing. Where a scale notice came with the notice, the passes for the scale notices that wait up to it are done
first, and the lanes read the table as they leave it (log 21). With the scale known, every lane has its label count and the D, a SMEAR lane
those of its record; the stamp's kind is the first of R142 whose condition holds, with the steps of R144 and R151; a label out of
range is presented as R143 says, and any other with its calendar fields; and the leap and shift indicators are those of the record
that decides them (R145, R146). A SMEAR lane whose record stands but is not SMEARING counts with the record's base D (log 50). -/
def Obligations.SecondNoticesFormStamps : Prop :=
  (∀ s : State, s.held = false →
    ((∀ m ∈ s.mail.candidateScale, m.ofEdge = false) → s.passesDone = s)
      ∧ ∀ t, (∃ m ∈ s.mail.candidateScale, m.ofEdge = true) → exec .candidateScaleNotice s = .next t →
        s.passesDone = t.passesDone)
    ∧ ∀ (s : State) (n : SecondNotice) (rest : List SecondNotice), s.held = false → s.mail.second = n :: rest →
    let taken : State := { s with mail := { s.mail with second := rest } }
    let u : State := if n.scaleGiven then taken.passesDone else taken
    (n.timeState = .unset ∨ s.ls.laneCount = 0 →
        exec .secondNotice s = .next taken)
      ∧ (n.timeState = .set → 0 < s.ls.laneCount → s.ls.lanesLaw →
        ∃ t,
          exec .secondNotice s = .next t ∧ t.ls.stream = .sending ∧ t.ls.laneCount = s.ls.laneCount
            ∧ t.ls.profiles = s.ls.profiles ∧ t = { u with ls := t.ls }
            ∧ ∀ (i : Nat) (p : LaneProfile), s.ls.profiles[i]? = some p →
              ∃ l, t.ls.latest[i]? = some (some l) ∧ l.t = n.t ∧ l.stamp.lane = i ∧ l.stamp.laneKind = p.kind
                ∧ (p.kind = .tai → l.stamp.count = min 4294967295 (n.t + 10) ∧ l.stamp.correction = 0)
                ∧ (n.status = .unknown → p.kind ≠ .tai →
                  l.stamp =
                    { lane := i, laneKind := p.kind, kind := .unscaled, count := 0, correction := 0, calendar := none, d := 0
                      leap := .noLeap, shift := .noShift })
                ∧ (n.status = .unknown → p.kind = .tai →
                  let stepped : Prop := ∃ delta, n.load = .stepped delta
                  l.stamp.d = 0 ∧ l.stamp.shift = .noShift
                    ∧ (n.d = none → n.marker = false → l.stamp.leap = .noLeap)
                    ∧ (n.t + 10 < 4039372800 →
                      (stepped → l.stamp.kind = .stepped) ∧ (¬stepped → l.stamp.kind = .normal)
                        ∧ l.stamp.calendar = some (convertLabel ((n.t : Int) + 10) false).fields)
                    ∧ (4039372800 ≤ n.t + 10 →
                      l.stamp.kind = .outOfRange ∧ l.stamp.leap = .noLeap
                        ∧ l.stamp.calendar =
                          some
                            { year := 2099, month := 12, day := 31, hour := 23, minute := 59, second := 59
                              weekday := 4 }))
                ∧ ∀ d, n.status ≠ .unknown → n.d = some d →
                  let label : Int := (n.t : Int) - ((d : Int) - 10)
                  (p.kind ≠ .smear → l.stamp.d = d)
                    ∧ (p.kind = .utc →
                      (l.stamp.count : Int) = min 4294967295 (max 0 label) ∧ l.stamp.correction = 0
                        ∧ (n.marker = true → label % 60 = 59 → 0 ≤ label → label < 4039372800 →
                          ∃ c, l.stamp.calendar = some c ∧ c.second = 60))
                    ∧ (∀ z offset, p.kind = .localTime → p.zone = some z → n.zones[z]? = some offset →
                      (l.stamp.count : Int) = min 4294967295 (max 0 (label + 60 * offset)) ∧ l.stamp.correction = 0)
                    ∧ ((p.kind = .localTime → ∃ z offset, p.zone = some z ∧ n.zones[z]? = some offset) →
                      let atLeap : Prop :=
                        p.kind = .smear
                          ∧ ∃ a ∈ n.applied,
                            a.key.isLeap = true ∧ (a.void = true ∨ ∀ x, s.ls.smears[i]? = some (some x) → x.key ≠ a.key)
                      let smear (x : Smear) : Prop := p.kind = .smear ∧ ¬atLeap ∧ t.ls.smears[i]? = some (some x)
                      let smearing (x : Smear) : Prop := smear x ∧ x.t0 < (n.t : Int) ∧ (n.t : Int) < x.x
                      ∃ presented : Int,
                        let inRange : Prop := 0 ≤ presented ∧ presented < 4039372800
                        let steps : Prop :=
                          p.kind = .tai ∧ (∃ delta, n.load = .stepped delta) ∨ p.kind ≠ .tai ∧ n.utcStep = true
                            ∨ p.kind = .localTime ∧ (∃ z, p.zone = some z ∧ n.zoneSteps[z]? = some true) ∨ atLeap
                        let leaps : Prop :=
                          (p.kind = .utc ∨ p.kind = .localTime)
                            ∧ (n.marker = true ∨ ∃ a ∈ n.applied, a.key.kind = .leapDelete ∧ a.void = false)
                        let ahead (kind : Key → Prop) (c : Candidate) : Prop :=
                          kind c.key ∧ c.key.windowEnd d - p.lead * 3600 ≤ (n.t : Int)
                        let leapAhead (c : Candidate) : Prop :=
                          ahead (fun k => k.isLeap = true) c ∧ (n.t : Int) < c.key.windowEnd d
                        let shiftAhead (z : Nat) (c : Candidate) : Prop :=
                          ahead (fun k => k.kind = .localShift ∧ k.target = .zone z) c
                            ∧ (c.state = .armed ∨ (n.t : Int) < c.key.windowEnd d)
                        (p.kind = .tai → presented = n.t + 10) ∧ (p.kind = .utc → presented = label)
                          ∧ (∀ z offset, p.kind = .localTime → p.zone = some z → n.zones[z]? = some offset →
                            presented = label + 60 * offset)
                          ∧ (p.kind = .smear → (∀ x, ¬smear x) → presented = label ∧ l.stamp.d = d)
                          ∧ (∀ x, smear x →
                            l.stamp.d = x.baseD
                              ∧ (smearing x →
                                presented = (x.reading n.t).1 ∧ (inRange → l.stamp.correction = (x.reading n.t).2))
                              ∧ (¬smearing x → presented = (n.t : Int) - ((x.baseD : Int) - 10)))
                          ∧ ((∀ x, ¬smearing x) → l.stamp.correction = 0)
                          ∧ (l.stamp.count : Int) = min 4294967295 (max 0 presented)
                          ∧ (¬inRange →
                            l.stamp.kind = .outOfRange ∧ l.stamp.correction = 0 ∧ l.stamp.leap = .noLeap
                              ∧ l.stamp.shift = .noShift
                              ∧ l.stamp.calendar =
                                some
                                  { year := 2099, month := 12, day := 31, hour := 23, minute := 59, second := 59
                                    weekday := 4 })
                          ∧ (inRange →
                            (steps → l.stamp.kind = .stepped) ∧ (¬steps → leaps → l.stamp.kind = .leap)
                              ∧ (¬steps → ¬leaps → (∃ x, smearing x) → l.stamp.kind = .smearing)
                              ∧ (¬steps → ¬leaps → (∀ x, ¬smearing x) → l.stamp.kind = .normal)
                              ∧ l.stamp.calendar =
                                some
                                  (convertLabel presented
                                    (n.marker && decide (p.kind = .utc ∨ p.kind = .localTime))).fields
                              ∧ (p.kind = .smear ∨ p.lead = 0 → l.stamp.leap = .noLeap)
                              ∧ (p.kind ≠ .smear → p.lead ≠ 0 →
                                (∀ c, decidesIndicator u.ct.reading leapAhead c →
                                    l.stamp.leap = if c.key.kind = .leapInsert then .insert else .delete)
                                  ∧ ((∀ c ∈ u.ct.reading, leapAhead c → c.state = .proposed) →
                                    l.stamp.leap = if n.marker then .insert else .noLeap))
                              ∧ (p.kind ≠ .localTime ∨ p.lead = 0 → l.stamp.shift = .noShift)
                              ∧ ∀ z offset, p.kind = .localTime → p.zone = some z → n.zones[z]? = some offset → p.lead ≠ 0 →
                                (∀ c v, decidesIndicator u.ct.reading (shiftAhead z) c → c.key.value = some v →
                                    l.stamp.shift =
                                      if offset < v then .forward else if v < offset then .backward else .noShift)
                                  ∧ ((∀ c ∈ u.ct.reading, shiftAhead z c → c.state = .proposed) →
                                    l.stamp.shift = .noShift))))

/-- An arming notice of one leap gives every SMEAR lane in use a record that ends at the leap's window end and begins W before it
or at the notice's T, whichever is later, with the D that stands, and none where fewer than 2 seconds are left (R147, Table 8-3);
other lanes keep theirs. At a second notice each SMEAR lane's record is checked (R149): a void application drops it, its window end
drops it, another D that its leap's application does not explain has it taken anew, and so does every time step, from a lane that
holds none too (R150): from the first ARMED leap of the reading whose window end lies ahead, as the passes for the scale notices
that come with the second notice leave that reading (log 21). The stamps of the lanes in use go out in lane order, each as 176
clock periods with the frame line high, most significant bit first, and one with it low, and both lines are low at every other time
and while a reset holds (R152, R154). The end of the stream makes it IDLE (R152). -/
def Obligations.SmearRecordsAndTheStream : Prop :=
  (∀ (s : State) (a : LaneArming) (rest : List LaneArming) (leap : ArmedLeap) (d : Nat), s.held = false →
      s.mail.laneArming = a :: rest → a.armed = [leap] → leap.key.isLeap = true → s.ss.d = some d → s.ls.lanesLaw →
      ∃ t,
        exec .laneArmingNotice s = .next t
          ∧ t = { s with ls := { s.ls with smears := t.ls.smears }, mail := { s.mail with laneArming := rest } }
          ∧ (∀ (i : Nat) (p : LaneProfile) (w : Nat), s.ls.profiles[i]? = some p → p.kind = .smear → p.window = some w →
            let t0 := max (leap.x - w) (a.t : Int)
            t.ls.smears[i]? =
              some
                (if leap.x - t0 < 2 then none
                else some { key := leap.key, baseD := d, x := leap.x, t0 := t0, width := leap.x - t0 }))
          ∧ ∀ i : Nat, (∀ p ∈ s.ls.profiles[i]?, p.kind ≠ .smear) → t.ls.smears[i]? = s.ls.smears[i]?)
    ∧ (∀ (s : State) (n : SecondNotice) (rest : List SecondNotice), s.held = false → s.mail.second = n :: rest →
      n.timeState = .set → 0 < s.ls.laneCount → s.ls.lanesLaw →
      let noticed : State := { s with mail := { s.mail with second := rest } }
      let u : State := if n.scaleGiven then noticed.passesDone else noticed
      ∃ t,
        exec .secondNotice s = .next t
          ∧ (∀ (i : Nat) (p : LaneProfile), s.ls.profiles[i]? = some p → p.kind ≠ .smear →
            t.ls.smears[i]? = s.ls.smears[i]?)
          ∧ ∀ (i : Nat) (p : LaneProfile) (w : Nat), s.ls.profiles[i]? = some p → p.kind = .smear → p.window = some w →
            let ahead (c : Candidate) : Prop :=
              c.state = .armed ∧ c.key.isLeap = true ∧ ∃ d, n.d = some d ∧ (n.t : Int) < c.key.windowEnd d
            let taken (x : Option Smear) : Prop :=
              ((∀ c ∈ u.ct.reading, ¬ahead c) → x = none)
                ∧ ∀ before c after d, u.ct.reading = before ++ c :: after → n.d = some d → ahead c →
                  (∀ y ∈ before, ¬ahead y) →
                  let t0 := max (c.key.windowEnd d - w) (n.t : Int)
                  x =
                    if c.key.windowEnd d - t0 < 2 then none
                    else
                      some
                        { key := c.key, baseD := d, x := c.key.windowEnd d, t0 := t0, width := c.key.windowEnd d - t0 }
            let stepped : Prop := ∃ delta, n.load = .stepped delta
            ∃ x,
              t.ls.smears[i]? = some x ∧ (stepped → taken x) ∧ (¬stepped → s.ls.smears[i]? = some none → x = none)
                ∧ ∀ held, ¬stepped → s.ls.smears[i]? = some (some held) →
                  let void : Prop := ∃ a ∈ n.applied, a.key = held.key ∧ a.void = true
                  let explained : Prop := n.d = some held.baseD ∨ ∃ a ∈ n.applied, a.key = held.key
                  (void ∨ held.x ≤ (n.t : Int) → x = none)
                    ∧ (¬void → (n.t : Int) < held.x → ¬explained → taken x)
                    ∧ (¬void → (n.t : Int) < held.x → explained → x = some held))
    ∧ (∀ s : State, s.ls.stream = .idle ∨ s.held = true → ∀ i, s.stampPins i = (false, false))
    ∧ (∀ s : State, s.ls.stream = .sending → s.held = false → s.ls.laneCount ≤ s.ls.latest.length →
      (∀ (i : Nat) (l : Option LatestStamp), i < s.ls.laneCount → s.ls.latest[i]? = some l → l.isSome = true) →
      (∀ (i : Nat) (l : LatestStamp), i < s.ls.laneCount → s.ls.latest[i]? = some (some l) →
          (∀ j, j < 176 →
            s.stampPins (177 * i + j) = (true, (l.stamp.bytes.getD (j / 8) 0).getMsbD (j % 8)))
            ∧ s.stampPins (177 * i + 176) = (false, false))
        ∧ ∀ i, 177 * s.ls.laneCount ≤ i → s.stampPins i = (false, false))
    ∧ ∀ s : State, s.held = false →
      exec .stampStreamDone s = .next { s with ls := { s.ls with stream := .idle, sent := 0 } }

/-- A smeared second (R148): the count and its correction together lie behind the held label by the elapsed fraction of the window
of an insertion, and ahead of it by that of a deletion, to the nearest nanosecond, and they rise from each second of the window to
the next. -/
def Obligations.SmearsSpreadTheSecond : Prop :=
  ∀ (r : Smear) (t : Nat), r.sound → r.key.isLeap = true → r.t0 < (t : Int) → (t : Int) < r.x →
    let reads (t : Nat) : Int := (r.reading t).1 * 1000000000 + (r.reading t).2
    let plain : Int := ((t : Int) - ((r.baseD : Int) - 10)) * 1000000000
    (∃ ns : Int,
        (ns * r.width - ((t : Int) - r.t0) * 1000000000) * 2 ≤ r.width
          ∧ -r.width < (ns * r.width - ((t : Int) - r.t0) * 1000000000) * 2
          ∧ (r.key.kind = .leapInsert → reads t = plain - ns) ∧ (r.key.kind = .leapDelete → reads t = plain + ns))
      ∧ (r.reading t).2 ≤ 999999999 ∧ ((t : Int) + 1 < r.x → reads t < reads (t + 1))

/-- The laws of the stamps are kept: lane profiles and smear records within their bounds, the law of the correction (R140) and the
law of the sixtieth second (R141) on every stamp that is held: second 60 stands on a UTC or LOCAL lane alone. Such a stamp is
formed only for a second whose notice carries the inserted-second marker, and a notice carries the marker only where its hand-over,
without a step, has applied an insertion at its own epoch (R124, R141). -/
def Obligations.StampLawKept : Prop :=
  (∀ s t : State, s.stampLaw → step s = .next t → t.stampLaw)
    ∧ (∀ (c : Instr) (s t : State) (i : Nat) (l : LatestStamp), exec c s = .next t → t.ls.latest[i]? = some (some l) →
      s.ls.latest[i]? ≠ some (some l) →
      c = .secondNotice
        ∧ ∃ n rest, s.mail.second = n :: rest ∧ l.t = n.t
          ∧ ∀ fields, l.stamp.calendar = some fields → fields.second = 60 → n.marker = true)
    ∧ ∀ (c : Instr) (s t : State) (n : SecondNotice), exec c s = .next t → n ∈ t.mail.second → n ∉ s.mail.second →
    n.marker = true →
    c = .handOver
      ∧ ∃ h rest key,
        s.mail.handOver = h :: rest ∧ n.t = h.t ∧ (∀ delta, h.load ≠ .stepped delta) ∧ key.kind = .leapInsert
          ∧ (key, (h.t : Int)) ∈ h.due ∧ { key := key, void := false } ∈ n.applied

/-! ## The History Store -/

/-- A written slot reads back as its record (R156, R157, R161, R188): it is VALID and its fields are those of the record, target
and value among them, from the bytes alone and from any array the bytes are written to. -/
def Obligations.SlotRoundTrip : Prop :=
  ∀ (r : HistoryRecord) (n : Nat), r.sound → n < 4294967296 →
    let b := r.slotBytes n
    b.length = 20 ∧ slotClass b = .valid ∧ slotSequence b = n ∧ byteAt b 4 = 1 ∧ byteAt b 5 = r.kind.code
      ∧ (r.target = .utc ∨ (∃ z, r.target = .zone z ∧ z < 4) → Target.ofCode (byteAt b 6) = some r.target)
      ∧ (r.kind = .leapInsert ∨ r.kind = .leapDelete → byteAt b 11 = 0)
      ∧ (r.kind = .offsetSet ∨ r.kind = .acquired ∨ r.kind = .yielded → 0 ≤ r.value → r.value ≤ 255 →
        (byteAt b 11 : Int) = r.value)
      ∧ (r.kind = .localShift → zoneOffsetOk r.value = true → 15 * signedOf 1 (byteAt b 11) = r.value)
      ∧ fieldAt b 7 4 = r.epochT ∧ byteAt b 12 = r.dAfter ∧ slotZones b = r.zones
      ∧ ∀ (m : Memory) (slot : Nat), m.wf = true →
        (m.writeBytes (20 * slot) b).slot slot = b ∧ ∀ j, j ≠ slot → (m.writeBytes (20 * slot) b).slot j = m.slot j

/-- The end of the scan (R159): the array is not written. With no VALID slot the pointer is slot 0 and the next sequence 1;
otherwise the pointer goes past the last slot in use of the newest record's page, and the sequence is the one after the newest,
EXHAUSTED past the last. Scale State takes D, the zones and STORED from the newest VALID record whose format and D pass, which need
not be the newest of all, and tells its three readers (R122), and stays where there is none. Then the store goes to INHIBITED where
that is pending, with its queue discarded (R166), and otherwise to IDLE, or begins the write of the head of its queue at once
(R161). -/
def Obligations.TheScanSettlesTheStore : Prop :=
  ∀ s : State, s.held = false → s.hs.state = .scanning →
    let slot (i : Nat) : List Byte := s.hs.array.slot i
    let valid (i : Nat) : Prop := i < 64 ∧ s.hs.classOf i = .valid
    let gives (i : Nat) : Prop := valid i ∧ byteAt (slot i) 4 = 1 ∧ 10 ≤ byteAt (slot i) 12
    let newest (of : Nat → Prop) (i : Nat) : Prop := of i ∧ ∀ j, of j → j ≠ i → slotSequence (slot j) < slotSequence (slot i)
    ∃ t pointer sequence,
      exec .scanEnd s = .next t ∧ t.hs.array = s.hs.array ∧ { t with hs := s.hs, ss := s.ss, mail := s.mail, cp := s.cp } = s
        ∧ ((∀ i, ¬valid i) → pointer = 0 ∧ sequence = some 1)
        ∧ (∀ i, newest valid i →
          sequence = (if slotSequence (slot i) < 4294967295 then some (slotSequence (slot i) + 1) else none)
            ∧ ∃ last, i ≤ last ∧ last / 16 = i / 16 ∧ s.hs.classOf last ≠ .empty
              ∧ (∀ j, last < j → j / 16 = i / 16 → s.hs.classOf j = .empty) ∧ pointer = (last + 1) % 64)
        ∧ ((∀ i, ¬gives i) → t.ss = s.ss ∧ t.mail = s.mail)
        ∧ (∀ i, newest gives i →
          let notice : ScaleNotice := { d := some (byteAt (slot i) 12), status := .stored, ofEdge := false }
          t.ss =
              { s.ss with
                d := some (byteAt (slot i) 12), status := .stored, zonesFromStore := true
                zones := (slotZones (slot i)).map (fun z => if -720 ≤ z ∧ z ≤ 840 then z else 0) }
            ∧ t.mail =
              { s.mail with
                candidateScale := s.mail.candidateScale ++ [notice], sourceScale := s.mail.sourceScale ++ [notice]
                peerTableScale := s.mail.peerTableScale ++ [notice] })
        ∧ (let scanned : State :=
            { s with hs := { s.hs with pointer := pointer, nextSequence := sequence }, ss := t.ss, mail := t.mail }
          (s.hs.inhibitPending = true → scanned.storeInhibited t)
            ∧ (s.hs.inhibitPending = false → scanned.beginsWrite t))

/-- The ends of the store's operations, and what the store does next (R162 to R166). A program that reads back as meant is kept, and
the write of the next record queued begins at once, with an erase first where its page is not writable, or the store is IDLE
(R161). One that does not is voided, which makes the slot TORN; after a first failure the same record is written again, at the next
slot and with a new sequence, and a second in a row makes the store FAILED. An erase that reads erased leaves the page EMPTY and the
head record is programmed; one that does not leaves the page not writable, and is made once more, or a second time makes the store
FAILED; a slot of a page not erased is VALID only where it stands as it did (R157; log 24). Where inhibit is pending the store goes to
INHIBITED at the end of the operation instead, whichever it is and however it ends. Records that are lost as the store goes to FAILED
or INHIBITED are told by STORE_GAP with their number and the first of them (R165, R166; the order of STORE_FAULT and STORE_GAP, log
43). A record posted joins the queue of a store that still writes, or is told by STORE_GAP where the queue is full (R160); posted to
FAILED or INHIBITED it is discarded, and the first so lost is told (R165, R167). An IDLE store begins its write at once: a program
with the next sequence, which it uses up, an erase first where the page is not writable, and FAILED where no sequence is left (R160,
R161). -/
def Obligations.StoreOperationsEnd : Prop :=
  (∀ (s : State) (r : HistoryRecord),
    (s.hs.queue.length < 4 → s.hs.state = .scanning ∨ s.hs.state = .programming ∨ s.hs.state = .erasing →
        s.postRecord r = { s with hs := { s.hs with queue := s.hs.queue ++ [r] } })
      ∧ (4 ≤ s.hs.queue.length → s.hs.state ≠ .failed → s.hs.state ≠ .inhibited →
        s.postRecord r = s.raise (.storeGap .queueFull 1 r.kind r.epochT))
      ∧ (∀ cause, s.hs.state = .failed ∧ cause = .failed ∨ s.hs.state = .inhibited ∧ cause = .inhibited →
        s.postRecord r =
          if s.hs.gapFlag then s
          else
            ({ s with hs := { s.hs with gapFlag := true } } : State).raise (.storeGap cause 1 r.kind r.epochT))
      ∧ (s.hs.state = .idle → s.hs.queue.length < 4 →
        ({ s with hs := { s.hs with queue := s.hs.queue ++ [r] } } : State).beginsWrite (s.postRecord r)))
    ∧ ∀ s : State, s.held = false → s.hs.pointer < 64 → s.hs.array.wf = true →
    let page := s.hs.pointer / 16
    (∀ (bytes : List Byte) (n : Nat), s.hs.operation = .program bytes n → bytes.length = 20 →
        (∀ readBack : List Byte, cellsAfter (s.hs.array.slot s.hs.pointer) readBack = bytes →
            ∃ t,
              exec (.programComplete readBack) s = .next t ∧ t.hs.array.slot s.hs.pointer = bytes
                ∧ (∀ j, j ≠ s.hs.pointer → t.hs.array.slot j = s.hs.array.slot j)
                ∧ (let kept : State :=
                    { s with
                      hs :=
                        { s.hs with
                          array := t.hs.array, pointer := (s.hs.pointer + 1) % 64, queue := s.hs.queue.drop 1
                          failureRun := 0 } }
                  (s.hs.inhibitPending = true → kept.storeInhibited t)
                    ∧ (s.hs.inhibitPending = false → kept.beginsWrite t)))
          ∧ ∀ readBack : List Byte, cellsAfter (s.hs.array.slot s.hs.pointer) readBack ≠ bytes →
            exec (.programComplete readBack) s =
              .next
                { s with
                  hs :=
                    { s.hs with
                      operation := .voiding (cellsAfter (s.hs.array.slot s.hs.pointer) readBack) n } })
      ∧ (∀ (cells : List Byte) (n : Nat), s.hs.operation = .voiding cells n → cells.length = 20 →
        ∃ t,
          exec .voidComplete s = .next t ∧ t.hs.classOf s.hs.pointer = .torn
            ∧ t.hs.array.slot s.hs.pointer = cells.take 19 ++ [0]
            ∧ (∀ j, j ≠ s.hs.pointer → t.hs.array.slot j = s.hs.array.slot j)
            ∧ (let passed : State :=
                { s with hs := { s.hs with array := t.hs.array, pointer := (s.hs.pointer + 1) % 64 } }
              (s.hs.inhibitPending = true → passed.storeInhibited t)
                ∧ (s.hs.inhibitPending = false → s.hs.failureRun = 0 →
                  ({ passed with hs := { passed.hs with failureRun := 1 } } : State).beginsWrite t)
                ∧ (s.hs.inhibitPending = false → 0 < s.hs.failureRun →
                  passed.storeFails (.verify s.hs.pointer n) t)))
      ∧ (s.hs.operation = .erase →
        (∀ readBack : List Byte, readBack = [] ∨ (∀ b ∈ pageAfter s.hs.array page readBack, b = 0xFF#8) →
          ∃ t,
            exec (.eraseComplete readBack) s = .next t ∧ (∀ j, j / 16 = page → t.hs.classOf j = .empty)
              ∧ (∀ j, j / 16 ≠ page → t.hs.array.slot j = s.hs.array.slot j)
              ∧ (let erased : State := { s with hs := { s.hs with array := t.hs.array, eraseRun := 0 } }
                (s.hs.inhibitPending = true → erased.storeInhibited t)
                  ∧ (s.hs.inhibitPending = false → erased.beginsWrite t)
                  ∧ ∀ r rest n, s.hs.inhibitPending = false → s.hs.queue = r :: rest → s.hs.nextSequence = some n →
                    t.hs.state = .programming ∧ t.hs.operation = .program (r.slotBytes n) n))
          ∧ ∀ readBack : List Byte, (∃ b ∈ pageAfter s.hs.array page readBack, b ≠ 0xFF#8) →
            ∃ t,
              exec (.eraseComplete readBack) s = .next t ∧ (∃ j, j / 16 = page ∧ t.hs.classOf j ≠ .empty)
                ∧ (∀ j, j / 16 = page → t.hs.classOf j = .valid → t.hs.array.slot j = s.hs.array.slot j)
                ∧ (∀ j, j / 16 ≠ page → t.hs.array.slot j = s.hs.array.slot j)
                ∧ (let left : State := { s with hs := { s.hs with array := t.hs.array } }
                  (s.hs.inhibitPending = true → left.storeInhibited t)
                    ∧ (s.hs.inhibitPending = false → s.hs.eraseRun = 0 →
                      t = { left with hs := { left.hs with eraseRun := 1 } })
                    ∧ (s.hs.inhibitPending = false → 0 < s.hs.eraseRun → left.storeFails (.erase page) t)))

/-- PREPARE_EXTRACTION is answered OK with the store state that it leaves (R166): an IDLE store is INHIBITED at once, a busy one
notes that it is to be, and INHIBITED and FAILED stay. -/
def Obligations.PrepareExtractionInhibits : Prop :=
  ∀ s : State, s.accepting →
    (s.hs.state = .idle → s.hs.queue = [] →
        exec (.prepareExtraction []) s =
          .next
            (({ s with
                hs :=
                  { s.hs with
                    state := .inhibited, inhibitPending := false, gapFlag := false
                    operation := .noOperation } } : State).answered 12 [] .ok [small StoreState.inhibited.code]))
      ∧ (s.hs.state = .scanning ∨ s.hs.state = .programming ∨ s.hs.state = .erasing →
        exec (.prepareExtraction []) s =
          .next
            (({ s with hs := { s.hs with inhibitPending := true } } : State).answered 12 [] .ok [small s.hs.state.code]))
      ∧ (s.hs.state = .inhibited ∨ s.hs.state = .failed →
        exec (.prepareExtraction []) s = .next (s.answered 12 [] .ok [small s.hs.state.code]))

/-- From every state within the store's bounds, every command completes, without a fault and without a refusal, and leaves the
store within them: the array in canonical form, the pointer on one of the 64 slots, at most 4 records queued (R155, R160). The
array changes only at the end of one of the store's operations, or where a reset cuts one short (R155, R169). -/
def Obligations.StoreLawKept : Prop :=
  (∀ s : State, s.storeLaw → ∃ t, step s = .next t ∧ t.storeLaw)
    ∧ ∀ (c : Instr) (s t : State), exec c s = .next t → t.hs.array ≠ s.hs.array →
    (∃ readBack, c = .programComplete readBack) ∨ c = .voidComplete ∨ (∃ readBack, c = .eraseComplete readBack)
      ∨ (s.hs.operation ≠ .noOperation
        ∧ (c = .powerOnReset ∨ c = .pinReset ∨ c = .powerFailure ∨ c = .transactionEnd ∧ s.cp.resetPending = true))
end

