-- ==== Sys2Proof/Laws/State.lean ====
section
/-! SUPPORT. What each plain update of the state leaves of each field: true by definition, for simp. -/

namespace Sys2Proof.Machine

@[simp] theorem State.raiseAt_pending (s : State) (t : Option Nat) (e : Event) : (s.raiseAt t e).pending = s.pending := rfl
@[simp] theorem State.raiseAt_tb (s : State) (t : Option Nat) (e : Event) : (s.raiseAt t e).tb = s.tb := rfl
@[simp] theorem State.raiseAt_si (s : State) (t : Option Nat) (e : Event) : (s.raiseAt t e).si = s.si := rfl
@[simp] theorem State.raiseAt_sbi (s : State) (t : Option Nat) (e : Event) : (s.raiseAt t e).sbi = s.sbi := rfl
@[simp] theorem State.raiseAt_pt (s : State) (t : Option Nat) (e : Event) : (s.raiseAt t e).pt = s.pt := rfl
@[simp] theorem State.raiseAt_ct (s : State) (t : Option Nat) (e : Event) : (s.raiseAt t e).ct = s.ct := rfl
@[simp] theorem State.raiseAt_ss (s : State) (t : Option Nat) (e : Event) : (s.raiseAt t e).ss = s.ss := rfl
@[simp] theorem State.raiseAt_ls (s : State) (t : Option Nat) (e : Event) : (s.raiseAt t e).ls = s.ls := rfl
@[simp] theorem State.raiseAt_hs (s : State) (t : Option Nat) (e : Event) : (s.raiseAt t e).hs = s.hs := rfl
@[simp] theorem State.raiseAt_cp (s : State) (t : Option Nat) (e : Event) : (s.raiseAt t e).cp = s.cp.post { event := e, t := t } := rfl
@[simp] theorem State.raiseAt_params (s : State) (t : Option Nat) (e : Event) : (s.raiseAt t e).params = s.params := rfl
@[simp] theorem State.raiseAt_mail (s : State) (t : Option Nat) (e : Event) : (s.raiseAt t e).mail = s.mail := rfl
@[simp] theorem State.raiseAt_held (s : State) (t : Option Nat) (e : Event) : (s.raiseAt t e).held = s.held := rfl
@[simp] theorem State.raiseAt_powered (s : State) (t : Option Nat) (e : Event) : (s.raiseAt t e).powered = s.powered := rfl
@[simp] theorem State.raiseAt_free (s : State) (t : Option Nat) (e : Event) : (s.raiseAt t e).free = s.free := rfl

@[simp] theorem State.raise_pending (s : State) (e : Event) : (s.raise e).pending = s.pending := rfl
@[simp] theorem State.raise_tb (s : State) (e : Event) : (s.raise e).tb = s.tb := rfl
@[simp] theorem State.raise_si (s : State) (e : Event) : (s.raise e).si = s.si := rfl
@[simp] theorem State.raise_sbi (s : State) (e : Event) : (s.raise e).sbi = s.sbi := rfl
@[simp] theorem State.raise_pt (s : State) (e : Event) : (s.raise e).pt = s.pt := rfl
@[simp] theorem State.raise_ct (s : State) (e : Event) : (s.raise e).ct = s.ct := rfl
@[simp] theorem State.raise_ss (s : State) (e : Event) : (s.raise e).ss = s.ss := rfl
@[simp] theorem State.raise_ls (s : State) (e : Event) : (s.raise e).ls = s.ls := rfl
@[simp] theorem State.raise_hs (s : State) (e : Event) : (s.raise e).hs = s.hs := rfl
@[simp] theorem State.raise_cp (s : State) (e : Event) : (s.raise e).cp = s.cp.post { event := e, t := s.eventT } := rfl
@[simp] theorem State.raise_params (s : State) (e : Event) : (s.raise e).params = s.params := rfl
@[simp] theorem State.raise_mail (s : State) (e : Event) : (s.raise e).mail = s.mail := rfl
@[simp] theorem State.raise_held (s : State) (e : Event) : (s.raise e).held = s.held := rfl
@[simp] theorem State.raise_powered (s : State) (e : Event) : (s.raise e).powered = s.powered := rfl
@[simp] theorem State.raise_free (s : State) (e : Event) : (s.raise e).free = s.free := rfl

@[simp] theorem State.respond_pending (s : State) (status : Status) (body : List Byte) : (s.respond status body).pending = s.pending := rfl
@[simp] theorem State.respond_tb (s : State) (status : Status) (body : List Byte) : (s.respond status body).tb = s.tb := rfl
@[simp] theorem State.respond_si (s : State) (status : Status) (body : List Byte) : (s.respond status body).si = s.si := rfl
@[simp] theorem State.respond_sbi (s : State) (status : Status) (body : List Byte) : (s.respond status body).sbi = s.sbi := rfl
@[simp] theorem State.respond_pt (s : State) (status : Status) (body : List Byte) : (s.respond status body).pt = s.pt := rfl
@[simp] theorem State.respond_ct (s : State) (status : Status) (body : List Byte) : (s.respond status body).ct = s.ct := rfl
@[simp] theorem State.respond_ss (s : State) (status : Status) (body : List Byte) : (s.respond status body).ss = s.ss := rfl
@[simp] theorem State.respond_ls (s : State) (status : Status) (body : List Byte) : (s.respond status body).ls = s.ls := rfl
@[simp] theorem State.respond_hs (s : State) (status : Status) (body : List Byte) : (s.respond status body).hs = s.hs := rfl
@[simp] theorem State.respond_cp (s : State) (status : Status) (body : List Byte) : (s.respond status body).cp = { s.cp with phase := .response, response := some { status := status, body := body } } := rfl
@[simp] theorem State.respond_params (s : State) (status : Status) (body : List Byte) : (s.respond status body).params = s.params := rfl
@[simp] theorem State.respond_mail (s : State) (status : Status) (body : List Byte) : (s.respond status body).mail = s.mail := rfl
@[simp] theorem State.respond_held (s : State) (status : Status) (body : List Byte) : (s.respond status body).held = s.held := rfl
@[simp] theorem State.respond_powered (s : State) (status : Status) (body : List Byte) : (s.respond status body).powered = s.powered := rfl
@[simp] theorem State.respond_free (s : State) (status : Status) (body : List Byte) : (s.respond status body).free = s.free := rfl

@[simp] theorem State.putBus_pending (s : State) (b : ScaleBus) : (s.putBus b).pending = s.pending := rfl
@[simp] theorem State.putBus_tb (s : State) (b : ScaleBus) : (s.putBus b).tb = s.tb := rfl
@[simp] theorem State.putBus_si (s : State) (b : ScaleBus) : (s.putBus b).si = s.si := rfl
@[simp] theorem State.putBus_sbi (s : State) (b : ScaleBus) : (s.putBus b).sbi = b := rfl
@[simp] theorem State.putBus_pt (s : State) (b : ScaleBus) : (s.putBus b).pt = s.pt := rfl
@[simp] theorem State.putBus_ct (s : State) (b : ScaleBus) : (s.putBus b).ct = s.ct := rfl
@[simp] theorem State.putBus_ss (s : State) (b : ScaleBus) : (s.putBus b).ss = s.ss := rfl
@[simp] theorem State.putBus_ls (s : State) (b : ScaleBus) : (s.putBus b).ls = s.ls := rfl
@[simp] theorem State.putBus_hs (s : State) (b : ScaleBus) : (s.putBus b).hs = s.hs := rfl
@[simp] theorem State.putBus_cp (s : State) (b : ScaleBus) : (s.putBus b).cp = s.cp := rfl
@[simp] theorem State.putBus_params (s : State) (b : ScaleBus) : (s.putBus b).params = s.params := rfl
@[simp] theorem State.putBus_mail (s : State) (b : ScaleBus) : (s.putBus b).mail = s.mail := rfl
@[simp] theorem State.putBus_held (s : State) (b : ScaleBus) : (s.putBus b).held = s.held := rfl
@[simp] theorem State.putBus_powered (s : State) (b : ScaleBus) : (s.putBus b).powered = s.powered := rfl
@[simp] theorem State.putBus_free (s : State) (b : ScaleBus) : (s.putBus b).free = s.free := rfl

@[simp] theorem State.putTime_pending (s : State) (b : TimeBase) : (s.putTime b).pending = s.pending := rfl
@[simp] theorem State.putTime_tb (s : State) (b : TimeBase) : (s.putTime b).tb = b := rfl
@[simp] theorem State.putTime_si (s : State) (b : TimeBase) : (s.putTime b).si = s.si := rfl
@[simp] theorem State.putTime_sbi (s : State) (b : TimeBase) : (s.putTime b).sbi = s.sbi := rfl
@[simp] theorem State.putTime_pt (s : State) (b : TimeBase) : (s.putTime b).pt = s.pt := rfl
@[simp] theorem State.putTime_ct (s : State) (b : TimeBase) : (s.putTime b).ct = s.ct := rfl
@[simp] theorem State.putTime_ss (s : State) (b : TimeBase) : (s.putTime b).ss = s.ss := rfl
@[simp] theorem State.putTime_ls (s : State) (b : TimeBase) : (s.putTime b).ls = s.ls := rfl
@[simp] theorem State.putTime_hs (s : State) (b : TimeBase) : (s.putTime b).hs = s.hs := rfl
@[simp] theorem State.putTime_cp (s : State) (b : TimeBase) : (s.putTime b).cp = s.cp := rfl
@[simp] theorem State.putTime_params (s : State) (b : TimeBase) : (s.putTime b).params = s.params := rfl
@[simp] theorem State.putTime_mail (s : State) (b : TimeBase) : (s.putTime b).mail = s.mail := rfl
@[simp] theorem State.putTime_held (s : State) (b : TimeBase) : (s.putTime b).held = s.held := rfl
@[simp] theorem State.putTime_powered (s : State) (b : TimeBase) : (s.putTime b).powered = s.powered := rfl
@[simp] theorem State.putTime_free (s : State) (b : TimeBase) : (s.putTime b).free = s.free := rfl

@[simp] theorem State.putStore_pending (s : State) (h : HistoryStore) : (s.putStore h).pending = s.pending := rfl
@[simp] theorem State.putStore_tb (s : State) (h : HistoryStore) : (s.putStore h).tb = s.tb := rfl
@[simp] theorem State.putStore_si (s : State) (h : HistoryStore) : (s.putStore h).si = s.si := rfl
@[simp] theorem State.putStore_sbi (s : State) (h : HistoryStore) : (s.putStore h).sbi = s.sbi := rfl
@[simp] theorem State.putStore_pt (s : State) (h : HistoryStore) : (s.putStore h).pt = s.pt := rfl
@[simp] theorem State.putStore_ct (s : State) (h : HistoryStore) : (s.putStore h).ct = s.ct := rfl
@[simp] theorem State.putStore_ss (s : State) (h : HistoryStore) : (s.putStore h).ss = s.ss := rfl
@[simp] theorem State.putStore_ls (s : State) (h : HistoryStore) : (s.putStore h).ls = s.ls := rfl
@[simp] theorem State.putStore_hs (s : State) (h : HistoryStore) : (s.putStore h).hs = h := rfl
@[simp] theorem State.putStore_cp (s : State) (h : HistoryStore) : (s.putStore h).cp = s.cp := rfl
@[simp] theorem State.putStore_params (s : State) (h : HistoryStore) : (s.putStore h).params = s.params := rfl
@[simp] theorem State.putStore_mail (s : State) (h : HistoryStore) : (s.putStore h).mail = s.mail := rfl
@[simp] theorem State.putStore_held (s : State) (h : HistoryStore) : (s.putStore h).held = s.held := rfl
@[simp] theorem State.putStore_powered (s : State) (h : HistoryStore) : (s.putStore h).powered = s.powered := rfl
@[simp] theorem State.putStore_free (s : State) (h : HistoryStore) : (s.putStore h).free = s.free := rfl

@[simp] theorem State.putRecords_pending (s : State) (rs : List Candidate) : (s.putRecords rs).pending = s.pending := rfl
@[simp] theorem State.putRecords_tb (s : State) (rs : List Candidate) : (s.putRecords rs).tb = s.tb := rfl
@[simp] theorem State.putRecords_si (s : State) (rs : List Candidate) : (s.putRecords rs).si = s.si := rfl
@[simp] theorem State.putRecords_sbi (s : State) (rs : List Candidate) : (s.putRecords rs).sbi = s.sbi := rfl
@[simp] theorem State.putRecords_pt (s : State) (rs : List Candidate) : (s.putRecords rs).pt = s.pt := rfl
@[simp] theorem State.putRecords_ct (s : State) (rs : List Candidate) : (s.putRecords rs).ct = { s.ct with records := rs } := rfl
@[simp] theorem State.putRecords_ss (s : State) (rs : List Candidate) : (s.putRecords rs).ss = s.ss := rfl
@[simp] theorem State.putRecords_ls (s : State) (rs : List Candidate) : (s.putRecords rs).ls = s.ls := rfl
@[simp] theorem State.putRecords_hs (s : State) (rs : List Candidate) : (s.putRecords rs).hs = s.hs := rfl
@[simp] theorem State.putRecords_cp (s : State) (rs : List Candidate) : (s.putRecords rs).cp = s.cp := rfl
@[simp] theorem State.putRecords_params (s : State) (rs : List Candidate) : (s.putRecords rs).params = s.params := rfl
@[simp] theorem State.putRecords_mail (s : State) (rs : List Candidate) : (s.putRecords rs).mail = s.mail := rfl
@[simp] theorem State.putRecords_held (s : State) (rs : List Candidate) : (s.putRecords rs).held = s.held := rfl
@[simp] theorem State.putRecords_powered (s : State) (rs : List Candidate) : (s.putRecords rs).powered = s.powered := rfl
@[simp] theorem State.putRecords_free (s : State) (rs : List Candidate) : (s.putRecords rs).free = s.free := rfl

@[simp] theorem State.noteReading_pending (s : State) : s.noteReading.pending = s.pending := rfl
@[simp] theorem State.noteReading_tb (s : State) : s.noteReading.tb = s.tb := rfl
@[simp] theorem State.noteReading_si (s : State) : s.noteReading.si = s.si := rfl
@[simp] theorem State.noteReading_sbi (s : State) : s.noteReading.sbi = s.sbi := rfl
@[simp] theorem State.noteReading_pt (s : State) : s.noteReading.pt = s.pt := rfl
@[simp] theorem State.noteReading_ct (s : State) : s.noteReading.ct = { s.ct with reading := s.ct.records.filter (fun r => r.state != .proposed) } := rfl
@[simp] theorem State.noteReading_ss (s : State) : s.noteReading.ss = s.ss := rfl
@[simp] theorem State.noteReading_ls (s : State) : s.noteReading.ls = s.ls := rfl
@[simp] theorem State.noteReading_hs (s : State) : s.noteReading.hs = s.hs := rfl
@[simp] theorem State.noteReading_cp (s : State) : s.noteReading.cp = s.cp := rfl
@[simp] theorem State.noteReading_params (s : State) : s.noteReading.params = s.params := rfl
@[simp] theorem State.noteReading_mail (s : State) : s.noteReading.mail = s.mail := rfl
@[simp] theorem State.noteReading_held (s : State) : s.noteReading.held = s.held := rfl
@[simp] theorem State.noteReading_powered (s : State) : s.noteReading.powered = s.powered := rfl
@[simp] theorem State.noteReading_free (s : State) : s.noteReading.free = s.free := rfl

@[simp] theorem State.edgeFlags_pending (s : State) : s.edgeFlags.pending = s.pending := rfl
@[simp] theorem State.edgeFlags_tb (s : State) : s.edgeFlags.tb = s.tb := rfl
@[simp] theorem State.edgeFlags_si (s : State) : s.edgeFlags.si = s.si := rfl
@[simp] theorem State.edgeFlags_sbi (s : State) : s.edgeFlags.sbi = s.sbi := rfl
@[simp] theorem State.edgeFlags_pt (s : State) : s.edgeFlags.pt = { s.pt with entryInvalid := false } := rfl
@[simp] theorem State.edgeFlags_ct (s : State) : s.edgeFlags.ct = { s.ct with tableFull := false } := rfl
@[simp] theorem State.edgeFlags_ss (s : State) : s.edgeFlags.ss = s.ss := rfl
@[simp] theorem State.edgeFlags_ls (s : State) : s.edgeFlags.ls = s.ls := rfl
@[simp] theorem State.edgeFlags_hs (s : State) : s.edgeFlags.hs = s.hs := rfl
@[simp] theorem State.edgeFlags_cp (s : State) : s.edgeFlags.cp = s.cp := rfl
@[simp] theorem State.edgeFlags_params (s : State) : s.edgeFlags.params = s.params := rfl
@[simp] theorem State.edgeFlags_mail (s : State) : s.edgeFlags.mail = s.mail := rfl
@[simp] theorem State.edgeFlags_held (s : State) : s.edgeFlags.held = s.held := rfl
@[simp] theorem State.edgeFlags_powered (s : State) : s.edgeFlags.powered = s.powered := rfl
@[simp] theorem State.edgeFlags_free (s : State) : s.edgeFlags.free = s.free := rfl

end Sys2Proof.Machine
end

