-- ==== Sys2Proof/Laws/Frames.lean ====
section
/-! SUPPORT. The frame of each shared operation: what a block's work leaves alone. `outside…` blanks the fields that the work
may change; a lemma says that the rest stays, and the field lemmas of the blanked states read the rest off it. -/

namespace Sys2Proof.Machine

/-- A fold of steps that each keep a reading keeps it. -/
theorem foldl_keeps {σ α β : Type} (m : σ → β) (f : σ → α → σ) (h : ∀ s a, m (f s a) = m s) (l : List α) (s : σ) :
    m (l.foldl f s) = m s := by
  induction l generalizing s with
  | nil => rfl
  | cons a l ih => rw [List.foldl_cons, ih, h]

/-- A repeated step that keeps a reading keeps it however often it is repeated. -/
theorem times_keeps {σ β : Type} (m : σ → β) (f : σ → σ) (h : ∀ s, m (f s) = m s) (n : Nat) (s : σ) :
    m (times n f s) = m s := by
  induction n generalizing s with
  | zero => rfl
  | succ n ih => rw [times, ih, h]

/-- A reading that a blanking leaves alone is the same on two states that are the same but for what is blanked. -/
theorem reads_alike {σ β : Type} (o : σ → σ) (m : σ → β) (hm : ∀ s, m (o s) = m s) {a b : σ} (h : o a = o b) :
    m a = m b := by
  rw [← hm a, h, hm b]

/-! ## Events -/

/-- The state but for the event queue and its counts. -/
def State.sansEvents (s : State) : State :=
  { s with cp := { s.cp with queue := [], overflow := 0, eventRead := .noRecord } }

/-- Posting a record changes the event queue alone. -/
theorem ControlPort.post_fields (cp : ControlPort) (r : EventRecord) :
    (cp.post r).phase = cp.phase ∧ (cp.post r).request = cp.request ∧ (cp.post r).response = cp.response
      ∧ (cp.post r).resetCause = cp.resetCause ∧ (cp.post r).resetPending = cp.resetPending := by
  unfold ControlPort.post; split <;> simp

theorem State.raiseAt_sansEvents (s : State) (t : Option Nat) (e : Event) :
    (s.raiseAt t e).sansEvents = s.sansEvents := by
  have h := ControlPort.post_fields s.cp { event := e, t := t }
  simp [State.sansEvents, State.raiseAt, h]

theorem State.raise_sansEvents (s : State) (e : Event) : (s.raise e).sansEvents = s.sansEvents :=
  s.raiseAt_sansEvents s.eventT e

theorem State.raiseAllAt_sansEvents (s : State) (t : Option Nat) (es : List Event) :
    (s.raiseAllAt t es).sansEvents = s.sansEvents :=
  foldl_keeps State.sansEvents _ (fun s e => s.raiseAt_sansEvents t e) es s

theorem State.raiseAll_sansEvents (s : State) (es : List Event) : (s.raiseAll es).sansEvents = s.sansEvents :=
  s.raiseAllAt_sansEvents s.eventT es

/-! ## What raising events leaves -/

section
variable (s : State) (t : Option Nat) (e : Event) (es : List Event)

@[simp] theorem State.raiseAllAt_tb : (s.raiseAllAt t es).tb = s.tb :=
  foldl_keeps State.tb (fun s e => s.raiseAt t e) (fun _ _ => rfl) es s
@[simp] theorem State.raiseAllAt_si : (s.raiseAllAt t es).si = s.si :=
  foldl_keeps State.si (fun s e => s.raiseAt t e) (fun _ _ => rfl) es s
@[simp] theorem State.raiseAllAt_sbi : (s.raiseAllAt t es).sbi = s.sbi :=
  foldl_keeps State.sbi (fun s e => s.raiseAt t e) (fun _ _ => rfl) es s
@[simp] theorem State.raiseAllAt_pt : (s.raiseAllAt t es).pt = s.pt :=
  foldl_keeps State.pt (fun s e => s.raiseAt t e) (fun _ _ => rfl) es s
@[simp] theorem State.raiseAllAt_ct : (s.raiseAllAt t es).ct = s.ct :=
  foldl_keeps State.ct (fun s e => s.raiseAt t e) (fun _ _ => rfl) es s
@[simp] theorem State.raiseAllAt_ss : (s.raiseAllAt t es).ss = s.ss :=
  foldl_keeps State.ss (fun s e => s.raiseAt t e) (fun _ _ => rfl) es s
@[simp] theorem State.raiseAllAt_ls : (s.raiseAllAt t es).ls = s.ls :=
  foldl_keeps State.ls (fun s e => s.raiseAt t e) (fun _ _ => rfl) es s
@[simp] theorem State.raiseAllAt_hs : (s.raiseAllAt t es).hs = s.hs :=
  foldl_keeps State.hs (fun s e => s.raiseAt t e) (fun _ _ => rfl) es s
@[simp] theorem State.raiseAllAt_params : (s.raiseAllAt t es).params = s.params :=
  foldl_keeps State.params (fun s e => s.raiseAt t e) (fun _ _ => rfl) es s
@[simp] theorem State.raiseAllAt_mail : (s.raiseAllAt t es).mail = s.mail :=
  foldl_keeps State.mail (fun s e => s.raiseAt t e) (fun _ _ => rfl) es s
@[simp] theorem State.raiseAllAt_pending : (s.raiseAllAt t es).pending = s.pending :=
  foldl_keeps State.pending (fun s e => s.raiseAt t e) (fun _ _ => rfl) es s
@[simp] theorem State.raiseAllAt_held : (s.raiseAllAt t es).held = s.held :=
  foldl_keeps State.held (fun s e => s.raiseAt t e) (fun _ _ => rfl) es s
@[simp] theorem State.raiseAllAt_powered : (s.raiseAllAt t es).powered = s.powered :=
  foldl_keeps State.powered (fun s e => s.raiseAt t e) (fun _ _ => rfl) es s
@[simp] theorem State.raiseAllAt_free : (s.raiseAllAt t es).free = s.free :=
  foldl_keeps State.free (fun s e => s.raiseAt t e) (fun _ _ => rfl) es s
@[simp] theorem State.raiseAll_tb : (s.raiseAll es).tb = s.tb := s.raiseAllAt_tb _ es
@[simp] theorem State.raiseAll_si : (s.raiseAll es).si = s.si := s.raiseAllAt_si _ es
@[simp] theorem State.raiseAll_sbi : (s.raiseAll es).sbi = s.sbi := s.raiseAllAt_sbi _ es
@[simp] theorem State.raiseAll_pt : (s.raiseAll es).pt = s.pt := s.raiseAllAt_pt _ es
@[simp] theorem State.raiseAll_ct : (s.raiseAll es).ct = s.ct := s.raiseAllAt_ct _ es
@[simp] theorem State.raiseAll_ss : (s.raiseAll es).ss = s.ss := s.raiseAllAt_ss _ es
@[simp] theorem State.raiseAll_ls : (s.raiseAll es).ls = s.ls := s.raiseAllAt_ls _ es
@[simp] theorem State.raiseAll_hs : (s.raiseAll es).hs = s.hs := s.raiseAllAt_hs _ es
@[simp] theorem State.raiseAll_params : (s.raiseAll es).params = s.params := s.raiseAllAt_params _ es
@[simp] theorem State.raiseAll_mail : (s.raiseAll es).mail = s.mail := s.raiseAllAt_mail _ es
@[simp] theorem State.raiseAll_pending : (s.raiseAll es).pending = s.pending := s.raiseAllAt_pending _ es
@[simp] theorem State.raiseAll_held : (s.raiseAll es).held = s.held := s.raiseAllAt_held _ es
@[simp] theorem State.raiseAll_powered : (s.raiseAll es).powered = s.powered := s.raiseAllAt_powered _ es
@[simp] theorem State.raiseAll_free : (s.raiseAll es).free = s.free := s.raiseAllAt_free _ es

end

/-! ## Source Intake -/

/-- The state but for Source Intake, its notices, the event queue and the counter of the free values. -/
def State.outsideSources (s : State) : State :=
  { s.sansEvents with si := .reset, mail := { s.mail with report := 0, operator := 0, source := 0 }, free := 0 }

theorem State.outsideSources_congr {s t : State} (h : s.sansEvents = t.sansEvents) : s.outsideSources = t.outsideSources := by
  have h' : ({ s.sansEvents with
      si := .reset, mail := { s.sansEvents.mail with report := 0, operator := 0, source := 0 }, free := 0 } : State) =
      { t.sansEvents with
        si := .reset, mail := { t.sansEvents.mail with report := 0, operator := 0, source := 0 }, free := 0 } := by rw [h]
  exact h'

theorem State.raiseAll_outsideSources (s : State) (es : List Event) : (s.raiseAll es).outsideSources = s.outsideSources :=
  State.outsideSources_congr (s.raiseAll_sansEvents es)

theorem State.putSources_outsideSources (s : State) (r : List SourceRecord × List Event) :
    (s.putSources r).outsideSources = s.outsideSources := by
  unfold State.putSources; rw [State.raiseAll_outsideSources]; rfl

theorem State.recheckSources_outsideSources (s : State) : s.recheckSources.outsideSources = s.outsideSources :=
  s.putSources_outsideSources _

theorem State.deriveSources_outsideSources (s : State) : s.deriveSources.outsideSources = s.outsideSources :=
  s.putSources_outsideSources (takeEach s.deriveSource 0 s.si.sources)

theorem State.keepItems_outsideSources (s : State) (items : List OperatorItem) :
    (s.keepItems items).outsideSources = s.outsideSources := by
  unfold State.keepItems; split <;> rfl

theorem State.sweepOperator_outsideSources (s : State) : s.sweepOperator.outsideSources = s.outsideSources := by
  unfold State.sweepOperator; split
  · exact s.keepItems_outsideSources _
  · rfl

theorem State.sourceNotices_outsideSources (s : State) (si : SourceIntake) :
    (s.sourceNotices si).outsideSources = s.outsideSources := rfl

/-- Source Intake's work for an edge changes Source Intake alone. -/
theorem State.sourceEdge_outsideSources (s : State) : s.sourceEdge.outsideSources = s.outsideSources := by
  unfold State.sourceEdge
  simp only [State.sourceNotices_outsideSources, State.sweepOperator_outsideSources, State.deriveSources_outsideSources,
    State.recheckSources_outsideSources]
  cases s.params with
  | none => rfl
  | some p => exact s.putSources_outsideSources _

theorem State.sourceStale_outsideSources (s : State) (i : Nat) : (s.sourceStale i).outsideSources = s.outsideSources := by
  unfold State.sourceStale
  split
  · rw [State.sourceNotices_outsideSources, State.putSources_outsideSources]
  · rfl

theorem State.refreshSources_outsideSources (s : State) (si : SourceIntake) :
    (s.refreshSources si).outsideSources = s.outsideSources := by
  unfold State.refreshSources
  rw [State.sourceNotices_outsideSources, State.deriveSources_outsideSources, State.recheckSources_outsideSources]

theorem State.graceExpiry_outsideSources (s : State) : s.graceExpiry.outsideSources = s.outsideSources := by
  unfold State.graceExpiry
  split
  · split
    · rw [State.refreshSources_outsideSources]; rfl
    · rfl
  · rfl

theorem State.takeAppliedChange_outsideSources (s : State) (k : ChangeKind) (d : Nat) :
    (s.takeAppliedChange k d).outsideSources = s.outsideSources := by
  unfold State.takeAppliedChange; rw [State.refreshSources_outsideSources]; rfl

theorem State.takeSourceScale_outsideSources (s : State) : s.takeSourceScale.outsideSources = s.outsideSources := by
  unfold State.takeSourceScale
  rw [State.sourceNotices_outsideSources, State.sweepOperator_outsideSources, State.deriveSources_outsideSources,
    State.recheckSources_outsideSources]

theorem State.takeCandidateNotice_outsideSources (s : State) (n : CandidateNotice) :
    (s.takeCandidateNotice n).outsideSources = s.outsideSources := by
  unfold State.takeCandidateNotice
  simp only [State.sourceNotices_outsideSources, State.keepItems_outsideSources]
  split
  · exact s.recheckSources_outsideSources
  · rfl

/-! ## The Peer Table -/

/-- The state but for the Peer Table, its notices and the event queue. -/
def State.outsidePeers (s : State) : State :=
  { s.sansEvents with pt := .reset, mail := { s.mail with peer := [], peerScale := 0 } }

theorem State.outsidePeers_congr {s t : State} (h : s.sansEvents = t.sansEvents) : s.outsidePeers = t.outsidePeers := by
  have h' : ({ s.sansEvents with pt := .reset, mail := { s.sansEvents.mail with peer := [], peerScale := 0 } } : State) =
      { t.sansEvents with pt := .reset, mail := { t.sansEvents.mail with peer := [], peerScale := 0 } } := by rw [h]
  exact h'

theorem State.raiseAll_outsidePeers (s : State) (es : List Event) : (s.raiseAll es).outsidePeers = s.outsidePeers :=
  State.outsidePeers_congr (s.raiseAll_sansEvents es)

theorem State.raise_outsidePeers (s : State) (e : Event) : (s.raise e).outsidePeers = s.outsidePeers :=
  State.outsidePeers_congr (s.raise_sansEvents e)

theorem State.putEntries_outsidePeers (s : State) (r : List PeerEntry × List Event) :
    (s.putEntries r).outsidePeers = s.outsidePeers := by
  unfold State.putEntries; rw [State.raiseAll_outsidePeers]; rfl

theorem State.peerNotices_outsidePeers (s : State) (pt : PeerTable) : (s.peerNotices pt).outsidePeers = s.outsidePeers := rfl

theorem State.reportEntry_outsidePeers (s : State) (a p k d : Nat) :
    (s.reportEntry a p k d).outsidePeers = s.outsidePeers := by
  unfold State.reportEntry
  split
  · rfl
  · rw [State.raise_outsidePeers]; rfl

theorem State.takeView_outsidePeers (s : State) (f : ReceivedFrame) (e : PeerEntry) :
    (s.takeView f e).2.outsidePeers = s.outsidePeers := by
  unfold State.takeView
  split
  · split
    · exact foldl_keeps State.outsidePeers _ (fun s d => s.reportEntry_outsidePeers _ _ _ _) _ _
    · exact s.reportEntry_outsidePeers _ _ _ _
  · rfl

/-- Taking a frame changes the Peer Table alone. -/
theorem State.takeFrame_outsidePeers (s : State) (f : ReceivedFrame) : (s.takeFrame f).outsidePeers = s.outsidePeers := by
  unfold State.takeFrame
  split
  · rw [State.peerNotices_outsidePeers, State.raiseAll_outsidePeers]
    have h (u : State) (l : List PeerEntry) :
        ({ u with pt := { u.pt with entries := l } } : State).outsidePeers = u.outsidePeers := rfl
    rw [h, State.takeView_outsidePeers]
    split
    · exact s.raise_outsidePeers _
    · rfl
  · rfl

/-- The Peer Table's work for an edge changes the Peer Table alone. -/
theorem State.peerEdge_outsidePeers (s : State) (load : LoadIndication) : (s.peerEdge load).outsidePeers = s.outsidePeers := by
  unfold State.peerEdge
  rw [State.peerNotices_outsidePeers]
  have h (u : State) (pt : PeerTable) : ({ u with pt := pt } : State).outsidePeers = u.outsidePeers := rfl
  rw [h, State.putEntries_outsidePeers, State.putEntries_outsidePeers]

theorem State.peerSilent_outsidePeers (s : State) (a : Nat) : (s.peerSilent a).outsidePeers = s.outsidePeers := by
  unfold State.peerSilent; rw [State.peerNotices_outsidePeers, State.putEntries_outsidePeers]

theorem State.peerPurge_outsidePeers (s : State) (a : Nat) : (s.peerPurge a).outsidePeers = s.outsidePeers := rfl

theorem State.takePeerTableScale_outsidePeers (s : State) : s.takePeerTableScale.outsidePeers = s.outsidePeers := rfl

/-! ## The Candidate Table -/

/-- The state but for the Candidate Table, its notices, the entry-invalid flag and the event queue. -/
def State.outsideTable (s : State) : State :=
  { s.sansEvents with
    ct := .reset, pt := { s.pt with entryInvalid := false }
    mail := { s.mail with view := 0, arming := 0, laneArming := [], candidate := [], handOver := [] } }

theorem State.outsideTable_congr {s t : State} (h : s.sansEvents = t.sansEvents) : s.outsideTable = t.outsideTable := by
  have h' : ({ s.sansEvents with
      ct := .reset, pt := { s.sansEvents.pt with entryInvalid := false }
      mail := { s.sansEvents.mail with view := 0, arming := 0, laneArming := [], candidate := [], handOver := [] } } : State) =
      { t.sansEvents with
        ct := .reset, pt := { t.sansEvents.pt with entryInvalid := false }
        mail :=
          { t.sansEvents.mail with view := 0, arming := 0, laneArming := [], candidate := [], handOver := [] } } := by rw [h]
  exact h'

theorem State.raiseAll_outsideTable (s : State) (es : List Event) : (s.raiseAll es).outsideTable = s.outsideTable :=
  State.outsideTable_congr (s.raiseAll_sansEvents es)

theorem State.raise_outsideTable (s : State) (e : Event) : (s.raise e).outsideTable = s.outsideTable :=
  State.outsideTable_congr (s.raise_sansEvents e)

theorem State.putRecords_outsideTable (s : State) (l : List Candidate) : (s.putRecords l).outsideTable = s.outsideTable := rfl

theorem State.barAll_outsideTable (s : State) (r : BarReason) (l : List (Key × Int)) :
    (s.barAll r l).outsideTable = s.outsideTable := rfl

theorem State.removeRecords_outsideTable (s : State) (g : Candidate → Bool) (e : Key → Event) :
    (s.removeRecords g e).outsideTable = s.outsideTable := by
  unfold State.removeRecords; rw [State.raiseAll_outsideTable, State.putRecords_outsideTable]

theorem State.stepEpochs_outsideTable (s : State) : s.stepEpochs.outsideTable = s.outsideTable := by
  unfold State.stepEpochs
  split
  · rfl
  · split
    · rfl
    · rw [State.removeRecords_outsideTable]; rfl

theorem State.stepBarred_outsideTable (s : State) : s.stepBarred.outsideTable = s.outsideTable := rfl

theorem State.stepExpiry_outsideTable (s : State) : s.stepExpiry.outsideTable = s.outsideTable :=
  s.removeRecords_outsideTable _ _

theorem State.enter_outsideTable (s : State) (o : Origin) (k : Key) : (s.enter o k).outsideTable = s.outsideTable := by
  unfold State.enter; rw [State.raise_outsideTable]; rfl

theorem State.refuseKey_outsideTable (s : State) (k : Key) : (s.refuseKey k).outsideTable = s.outsideTable := by
  unfold State.refuseKey
  split
  · rfl
  · rw [State.raise_outsideTable]; rfl

theorem State.admitKey_outsideTable (s : State) (o : Origin) (k : Key) : (s.admitKey o k).outsideTable = s.outsideTable := by
  unfold State.admitKey
  split
  · exact s.enter_outsideTable o k
  · split
    · split
      · rw [State.enter_outsideTable, State.removeRecords_outsideTable]
      · exact s.refuseKey_outsideTable k
    · exact s.refuseKey_outsideTable k

theorem State.reportKey_outsideTable (s : State) (k : Key) : (s.reportKey k).outsideTable = s.outsideTable := by
  unfold State.reportKey
  split
  · unfold State.reportEntry
    split
    · rfl
    · rw [State.raise_outsideTable]; rfl
  · rfl

theorem State.considerKey_outsideTable (s : State) (k : Key) : (s.considerKey k).outsideTable = s.outsideTable := by
  unfold State.considerKey
  split
  · rfl
  · split
    · exact s.reportKey_outsideTable k
    · split
      · exact s.admitKey_outsideTable _ k
      · rfl

theorem State.stepAdmission_outsideTable (s : State) : s.stepAdmission.outsideTable = s.outsideTable :=
  foldl_keeps State.outsideTable _ (fun s k => s.considerKey_outsideTable k) _ _

theorem State.stepTallies_outsideTable (s : State) : s.stepTallies.outsideTable = s.outsideTable := rfl

theorem State.stepWithdrawal_outsideTable (s : State) : s.stepWithdrawal.outsideTable = s.outsideTable :=
  s.removeRecords_outsideTable _ _

theorem State.stepDemotion_outsideTable (s : State) : s.stepDemotion.outsideTable = s.outsideTable := by
  unfold State.stepDemotion; rw [State.raiseAll_outsideTable]; rfl

theorem State.settle_outsideTable (s : State) (b : ArmedBy) (f : Candidate → Bool) (e : Candidate → List Event) :
    (s.settle b f e).outsideTable = s.outsideTable := by
  unfold State.settle; rw [State.raiseAll_outsideTable]; rfl

theorem State.armByFollow_outsideTable (s : State) (k : Key) : (s.armByFollow k).outsideTable = s.outsideTable := by
  unfold State.armByFollow
  rw [State.barAll_outsideTable, State.removeRecords_outsideTable, State.raise_outsideTable]; rfl

theorem State.followHeld_outsideTable (s : State) (k : Key) : (s.followHeld k).outsideTable = s.outsideTable := by
  unfold State.followHeld
  split
  · split
    · exact s.armByFollow_outsideTable k
    · rfl
  · rfl

theorem State.followAbsent_outsideTable (s : State) (k : Key) : (s.followAbsent k).outsideTable = s.outsideTable := by
  unfold State.followAbsent
  split
  · dsimp only
    split
    · rw [State.armByFollow_outsideTable]; exact s.admitKey_outsideTable _ k
    · exact s.admitKey_outsideTable _ k
  · rfl

theorem State.stepFollow_outsideTable (s : State) : s.stepFollow.outsideTable = s.outsideTable := by
  unfold State.stepFollow
  rw [foldl_keeps State.outsideTable _ (fun s k => s.followAbsent_outsideTable k),
    foldl_keeps State.outsideTable _ (fun s k => s.followHeld_outsideTable k)]

theorem State.stepAcceptance_outsideTable (s : State) : s.stepAcceptance.outsideTable = s.outsideTable := by
  unfold State.stepAcceptance; rw [State.settle_outsideTable]; rfl

theorem State.stepDue_outsideTable (s : State) (load : LoadIndication) : (s.stepDue load).outsideTable = s.outsideTable := rfl

theorem State.compareView_outsideTable (s : State) : s.compareView.outsideTable = s.outsideTable := by
  unfold State.compareView; split <;> rfl

theorem State.giveArming_outsideTable (s : State) (l : List ArmedLeap) : (s.giveArming l).outsideTable = s.outsideTable := by
  unfold State.giveArming; split <;> rfl

theorem State.giveCandidate_outsideTable (s : State) (n : CandidateNotice) :
    (s.giveCandidate n).outsideTable = s.outsideTable := by
  unfold State.giveCandidate; split <;> rfl

theorem State.passOpening_outsideTable (s : State) : s.passOpening.outsideTable = s.outsideTable := by
  unfold State.passOpening
  rw [State.stepDemotion_outsideTable, State.stepWithdrawal_outsideTable, State.stepTallies_outsideTable,
    State.stepAdmission_outsideTable, State.stepExpiry_outsideTable, State.stepBarred_outsideTable,
    State.stepEpochs_outsideTable]

theorem State.passArming_outsideTable (s : State) (b : Bool) : (s.passArming b).outsideTable = s.outsideTable := by
  unfold State.passArming
  rw [State.stepFollow_outsideTable]
  split
  · exact s.settle_outsideTable _ _ _
  · rfl

/-- A pass changes no state outside the Candidate Table but for its notices, the entry-invalid flag and the events it raises
(R91, R95). -/
theorem State.pass_outsideTable (s : State) (edge : Option LoadIndication) : (s.pass edge).outsideTable = s.outsideTable := by
  unfold State.pass
  dsimp only
  rw [State.giveCandidate_outsideTable, State.giveArming_outsideTable, State.compareView_outsideTable]
  cases edge with
  | none =>
    rw [State.stepAcceptance_outsideTable, State.passArming_outsideTable, State.passOpening_outsideTable]
  | some load =>
    rw [State.stepDue_outsideTable, State.stepAcceptance_outsideTable, State.passArming_outsideTable,
      State.passOpening_outsideTable]

section
variable (s : State) (edge : Option LoadIndication)

@[simp] theorem State.pass_tb : (s.pass edge).tb = s.tb :=
  reads_alike State.outsideTable State.tb (fun _ => rfl) (s.pass_outsideTable edge)
@[simp] theorem State.pass_si : (s.pass edge).si = s.si :=
  reads_alike State.outsideTable State.si (fun _ => rfl) (s.pass_outsideTable edge)
@[simp] theorem State.pass_sbi : (s.pass edge).sbi = s.sbi :=
  reads_alike State.outsideTable State.sbi (fun _ => rfl) (s.pass_outsideTable edge)
@[simp] theorem State.pass_ss : (s.pass edge).ss = s.ss :=
  reads_alike State.outsideTable State.ss (fun _ => rfl) (s.pass_outsideTable edge)
@[simp] theorem State.pass_ls : (s.pass edge).ls = s.ls :=
  reads_alike State.outsideTable State.ls (fun _ => rfl) (s.pass_outsideTable edge)
@[simp] theorem State.pass_hs : (s.pass edge).hs = s.hs :=
  reads_alike State.outsideTable State.hs (fun _ => rfl) (s.pass_outsideTable edge)
@[simp] theorem State.pass_params : (s.pass edge).params = s.params :=
  reads_alike State.outsideTable State.params (fun _ => rfl) (s.pass_outsideTable edge)
@[simp] theorem State.pass_pending : (s.pass edge).pending = s.pending :=
  reads_alike State.outsideTable State.pending (fun _ => rfl) (s.pass_outsideTable edge)
@[simp] theorem State.pass_held : (s.pass edge).held = s.held :=
  reads_alike State.outsideTable State.held (fun _ => rfl) (s.pass_outsideTable edge)
@[simp] theorem State.pass_powered : (s.pass edge).powered = s.powered :=
  reads_alike State.outsideTable State.powered (fun _ => rfl) (s.pass_outsideTable edge)
@[simp] theorem State.pass_free : (s.pass edge).free = s.free :=
  reads_alike State.outsideTable State.free (fun _ => rfl) (s.pass_outsideTable edge)
/-- A pass leaves the peer entries alone. -/
@[simp] theorem State.pass_peerEntries : (s.pass edge).pt.entries = s.pt.entries :=
  reads_alike State.outsideTable (fun s : State => s.pt.entries) (fun _ => rfl) (s.pass_outsideTable edge)

end

/-! ## The Scale Bus Interface -/

/-- The state but for the Scale Bus Interface and the event queue. -/
def State.outsideBus (s : State) : State := { s.sansEvents with sbi := .reset }

theorem State.putBus_outsideBus (s : State) (b : ScaleBus) : (s.putBus b).outsideBus = s.outsideBus := rfl

theorem State.raise_outsideBus (s : State) (e : Event) : (s.raise e).outsideBus = s.outsideBus := by
  have h := s.raise_sansEvents e
  have h' : ({ (s.raise e).sansEvents with sbi := .reset } : State) = { s.sansEvents with sbi := .reset } := by rw [h]
  exact h'

theorem State.listenSpanComplete_outsideBus (s : State) : s.listenSpanComplete.outsideBus = s.outsideBus := by
  unfold State.listenSpanComplete
  split
  · split <;> rfl
  · rfl

/-- The Scale Bus Interface's work for an edge changes it alone. -/
theorem State.busEdge_outsideBus (s : State) (b : Bool) : (s.busEdge b).outsideBus = s.outsideBus := by
  unfold State.busEdge
  dsimp only
  split
  · rfl
  · split
    · rfl
    · rfl
    · rw [State.listenSpanComplete_outsideBus]; rfl
    · rfl

theorem State.viewNotice_outsideBus (s : State) : s.viewNotice.outsideBus = s.outsideBus := by
  unfold State.viewNotice; split <;> rfl

theorem State.armingNotice_outsideBus (s : State) : s.armingNotice.outsideBus = s.outsideBus := by
  unfold State.armingNotice; split <;> rfl

theorem State.mute_outsideBus (s : State) (a : Nat) (c : ClashCause) : (s.mute a c).outsideBus = s.outsideBus := by
  unfold State.mute; rw [State.raise_outsideBus]; rfl

theorem State.transmitStart_outsideBus (s : State) (w : Nat) : (s.transmitStart w).outsideBus = s.outsideBus := by
  unfold State.transmitStart
  split
  · split <;> rfl
  · rfl

theorem State.completeFrame_outsideBus (s : State) (f : ViewFrame) : (s.completeFrame f).outsideBus = s.outsideBus := by
  unfold State.completeFrame
  dsimp only
  split
  · rw [State.raise_outsideBus]; rfl
  · rfl

theorem State.abandonFrame_outsideBus (s : State) (f : ViewFrame) : (s.abandonFrame f).outsideBus = s.outsideBus := by
  unfold State.abandonFrame
  dsimp only
  split
  · rw [State.mute_outsideBus]; rfl
  · rfl

theorem State.frameCompleted_outsideBus (s : State) (others : List Level) :
    (s.frameCompleted others).outsideBus = s.outsideBus := by
  unfold State.frameCompleted
  split
  · rfl
  · split
    · exact s.completeFrame_outsideBus _
    · rfl

theorem State.readBackMismatch_outsideBus (s : State) (others : List Level) :
    (s.readBackMismatch others).outsideBus = s.outsideBus := by
  unfold State.readBackMismatch
  split
  · rfl
  · split
    · rfl
    · exact s.abandonFrame_outsideBus _

theorem State.discardFrame_outsideBus (s : State) : s.discardFrame.outsideBus = s.outsideBus := by
  unfold State.discardFrame
  dsimp only
  split
  · rfl
  · rw [State.raise_outsideBus]; rfl

/-! ## The edge -/

/-- The state but for what an edge's work may change: the four blocks, their notices, the event queue and the counter of the
free values. -/
def State.outsideEdge (s : State) : State :=
  { s.sansEvents with si := .reset, pt := .reset, sbi := .reset, ct := .reset, mail := .reset, free := 0 }

theorem State.outsideEdge_of_sources {s t : State} (h : s.outsideSources = t.outsideSources) :
    s.outsideEdge = t.outsideEdge := by
  have h' : s.outsideSources.outsideEdge = t.outsideSources.outsideEdge := by rw [h]
  exact h'

theorem State.outsideEdge_of_peers {s t : State} (h : s.outsidePeers = t.outsidePeers) : s.outsideEdge = t.outsideEdge := by
  have h' : s.outsidePeers.outsideEdge = t.outsidePeers.outsideEdge := by rw [h]
  exact h'

theorem State.outsideEdge_of_table {s t : State} (h : s.outsideTable = t.outsideTable) : s.outsideEdge = t.outsideEdge := by
  have h' : s.outsideTable.outsideEdge = t.outsideTable.outsideEdge := by rw [h]
  exact h'

theorem State.outsideEdge_of_bus {s t : State} (h : s.outsideBus = t.outsideBus) : s.outsideEdge = t.outsideEdge := by
  have h' : s.outsideBus.outsideEdge = t.outsideBus.outsideEdge := by rw [h]
  exact h'

theorem State.outsideEdge_of_events {s t : State} (h : s.sansEvents = t.sansEvents) : s.outsideEdge = t.outsideEdge := by
  have h' : s.sansEvents.outsideEdge = t.sansEvents.outsideEdge := by rw [h]
  exact h'

theorem State.pass_outsideEdge (s : State) (edge : Option LoadIndication) : (s.pass edge).outsideEdge = s.outsideEdge :=
  State.outsideEdge_of_table (s.pass_outsideTable edge)

theorem State.noteReading_outsideEdge (s : State) : s.noteReading.outsideEdge = s.outsideEdge := rfl

theorem State.edgeFlags_outsideEdge (s : State) : s.edgeFlags.outsideEdge = s.outsideEdge := rfl

theorem State.takeReport_outsideEdge (s : State) : s.takeReport.outsideEdge = s.outsideEdge := by
  unfold State.takeReport; split
  · rfl
  · rw [State.pass_outsideEdge]; rfl

theorem State.takeOperator_outsideEdge (s : State) : s.takeOperator.outsideEdge = s.outsideEdge := by
  unfold State.takeOperator; split
  · rfl
  · rw [State.pass_outsideEdge]; rfl

theorem State.takePeer_outsideEdge (s : State) : s.takePeer.outsideEdge = s.outsideEdge := by
  unfold State.takePeer; split
  · rfl
  · rw [State.pass_outsideEdge]; rfl

theorem State.takeCandidateScale_outsideEdge (s : State) : s.takeCandidateScale.outsideEdge = s.outsideEdge := by
  unfold State.takeCandidateScale; split
  · rfl
  · dsimp only
    split
    · rw [State.noteReading_outsideEdge, State.pass_outsideEdge]; rfl
    · rw [State.pass_outsideEdge]; rfl

theorem State.takeTimeBase_outsideEdge (s : State) : s.takeTimeBase.outsideEdge = s.outsideEdge := by
  unfold State.takeTimeBase; split
  · rfl
  · rw [State.pass_outsideEdge]; rfl

theorem State.takeViewNotice_outsideEdge (s : State) : s.takeViewNotice.outsideEdge = s.outsideEdge := by
  unfold State.takeViewNotice; split
  · rfl
  · rw [State.outsideEdge_of_bus (State.viewNotice_outsideBus _)]; rfl

theorem State.takeArmingNotice_outsideEdge (s : State) : s.takeArmingNotice.outsideEdge = s.outsideEdge := by
  unfold State.takeArmingNotice; split
  · rfl
  · rw [State.outsideEdge_of_bus (State.armingNotice_outsideBus _)]; rfl

theorem State.takeOffers_outsideEdge (s : State) : s.takeOffers.outsideEdge = s.outsideEdge := by
  unfold State.takeOffers
  dsimp only
  rw [times_keeps State.outsideEdge _ State.takePeer_outsideEdge, times_keeps State.outsideEdge _ State.takeOperator_outsideEdge,
    times_keeps State.outsideEdge _ State.takeReport_outsideEdge]

theorem State.takeTableNotices_outsideEdge (s : State) : s.takeTableNotices.outsideEdge = s.outsideEdge := by
  unfold State.takeTableNotices
  dsimp only
  rw [times_keeps State.outsideEdge _ State.takeArmingNotice_outsideEdge,
    times_keeps State.outsideEdge _ State.takeViewNotice_outsideEdge]

theorem edgeBlock_outsideEdge (load : LoadIndication) (r : State × Bool) (b : EdgeBlock) :
    (edgeBlock load r b).1.outsideEdge = r.1.outsideEdge := by
  cases b with
  | sources => exact State.outsideEdge_of_sources r.1.sourceEdge_outsideSources
  | peers => exact State.outsideEdge_of_peers (r.1.peerEdge_outsidePeers load)
  | bus =>
    show (r.1.takeTableNotices.busEdge r.2).outsideEdge = _
    rw [State.outsideEdge_of_bus (State.busEdge_outsideBus _ _), State.takeTableNotices_outsideEdge]
  | candidates =>
    show (r.1.takeOffers.pass (some load)).outsideEdge = _
    rw [State.pass_outsideEdge, State.takeOffers_outsideEdge]

/-- Whatever the order, the blocks' work for an edge leaves the rest of the part alone. -/
theorem State.handEdge_outsideEdge (s : State) (load : LoadIndication) (order : List EdgeBlock) :
    (s.handEdge load order).outsideEdge = s.outsideEdge :=
  foldl_keeps (fun r : State × Bool => r.1.outsideEdge) _ (edgeBlock_outsideEdge load) order (s, false)

/-- What an edge does outside the four blocks: the Time Base has settled the new second, and the counter of the free values
and the notices aside nothing else has moved. -/
theorem State.edgeIn_outsideEdge (s : State) (order : List EdgeBlock) (tick : Nat) (events : List Event) :
    (s.edgeIn order tick events).outsideEdge = (s.openSecond tick).outsideEdge := by
  unfold State.edgeIn
  dsimp only
  rw [State.handEdge_outsideEdge, State.outsideEdge_of_events (State.raiseAll_sansEvents _ _)]
  rfl

section
variable (s : State) (order : List EdgeBlock) (tick : Nat) (events : List Event)

/-- The Time Base after an edge. -/
@[simp] theorem State.edgeIn_tb : (s.edgeIn order tick events).tb = (s.openSecond tick).tb :=
  reads_alike State.outsideEdge State.tb (fun _ => rfl) (s.edgeIn_outsideEdge order tick events)
@[simp] theorem State.edgeIn_ss : (s.edgeIn order tick events).ss = s.ss :=
  (reads_alike State.outsideEdge State.ss (fun _ => rfl) (s.edgeIn_outsideEdge order tick events)).trans rfl
@[simp] theorem State.edgeIn_ls : (s.edgeIn order tick events).ls = s.ls :=
  (reads_alike State.outsideEdge State.ls (fun _ => rfl) (s.edgeIn_outsideEdge order tick events)).trans rfl
@[simp] theorem State.edgeIn_hs : (s.edgeIn order tick events).hs = s.hs :=
  (reads_alike State.outsideEdge State.hs (fun _ => rfl) (s.edgeIn_outsideEdge order tick events)).trans rfl
@[simp] theorem State.edgeIn_params : (s.edgeIn order tick events).params = s.params :=
  (reads_alike State.outsideEdge State.params (fun _ => rfl) (s.edgeIn_outsideEdge order tick events)).trans rfl
@[simp] theorem State.edgeIn_pending : (s.edgeIn order tick events).pending = s.pending :=
  (reads_alike State.outsideEdge State.pending (fun _ => rfl) (s.edgeIn_outsideEdge order tick events)).trans rfl
@[simp] theorem State.edgeIn_held : (s.edgeIn order tick events).held = s.held :=
  (reads_alike State.outsideEdge State.held (fun _ => rfl) (s.edgeIn_outsideEdge order tick events)).trans rfl
@[simp] theorem State.edgeIn_powered : (s.edgeIn order tick events).powered = s.powered :=
  (reads_alike State.outsideEdge State.powered (fun _ => rfl) (s.edgeIn_outsideEdge order tick events)).trans rfl

end

end Sys2Proof.Machine
end

