-- ==== Sys2Proof/Laws/Memory.lean ====
section
/-! SUPPORT. The array: every write keeps the canonical form; a read after a write. -/

namespace Sys2Proof.Machine

/-- A list that rises from a bound rises from every lower one. -/
theorem Memory.risingFrom_lower {lo lo' : Nat} {m : Memory} (h : Memory.risingFrom lo m = true) (hl : lo' ≤ lo) :
    Memory.risingFrom lo' m = true := by
  cases m with
  | nil => rfl
  | cons c rest =>
    simp only [Memory.risingFrom, Bool.and_eq_true, decide_eq_true_eq] at h ⊢
    exact ⟨⟨by omega, h.1.2⟩, h.2⟩

/-- A write keeps the canonical form. -/
theorem Memory.risingFrom_write {lo a : Nat} {m : Memory} (v : Byte) (h : Memory.risingFrom lo m = true) (hl : lo ≤ a) :
    Memory.risingFrom lo (m.write a v) = true := by
  induction m generalizing lo with
  | nil =>
    unfold Memory.write
    split
    · rfl
    · rename_i hv; simp [Memory.risingFrom, hl, hv]
  | cons c rest ih =>
    obtain ⟨b, w⟩ := c
    simp only [Memory.risingFrom, Bool.and_eq_true, decide_eq_true_eq] at h
    unfold Memory.write
    by_cases h1 : a < b
    · by_cases hv : v = erasedByte
      · simp [h1, hv, Memory.risingFrom, h.1.1, h.1.2, h.2]
      · have hb : a + 1 ≤ b := by omega
        simp [h1, hv, Memory.risingFrom, hl, hb, h.1.2, h.2]
    · by_cases h2 : a = b
      · subst h2
        by_cases hv : v = erasedByte
        · simpa [hv] using Memory.risingFrom_lower h.2 (by omega)
        · simp [hv, Memory.risingFrom, hl, h.2]
      · have := ih h.2 (by omega)
        simp [h1, h2, Memory.risingFrom, h.1.1, h.1.2, this]

/-- Memory.write keeps Memory.wf. -/
theorem Memory.write_wf {m : Memory} (a : Nat) (v : Byte) (h : m.wf = true) : (m.write a v).wf = true :=
  Memory.risingFrom_write v h (Nat.zero_le a)

/-- Memory.writeBytes keeps Memory.wf. -/
theorem Memory.writeBytes_wf {m : Memory} (a : Nat) (bytes : List Byte) (h : m.wf = true) :
    (m.writeBytes a bytes).wf = true := by
  induction bytes generalizing m a with
  | nil => exact h
  | cons b bytes ih => exact ih _ (Memory.write_wf a b h)

/-- An address below the bound of a list that rises reads as erased. -/
theorem Memory.read_below {lo a : Nat} {m : Memory} (h : Memory.risingFrom lo m = true) (ha : a < lo) :
    m.read a = erasedByte := by
  induction m generalizing lo with
  | nil => rfl
  | cons c rest ih =>
    obtain ⟨b, w⟩ := c
    simp only [Memory.risingFrom, Bool.and_eq_true, decide_eq_true_eq] at h
    have hb : b ≠ a := by omega
    simp only [Memory.read, hb, if_false]
    exact ih h.2 (by omega)

/-- A write leaves every other address as it read. -/
theorem Memory.read_write_other {m : Memory} {a b : Nat} (v : Byte) (h : b ≠ a) : (m.write a v).read b = m.read b := by
  induction m with
  | nil =>
    unfold Memory.write
    split
    · rfl
    · simp [Memory.read, Ne.symm h]
  | cons c rest ih =>
    obtain ⟨k, w⟩ := c
    unfold Memory.write
    by_cases h1 : a < k
    · by_cases hv : v = erasedByte
      · simp [h1, hv]
      · simp [h1, hv, Memory.read, Ne.symm h]
    · by_cases h2 : a = k
      · subst h2
        by_cases hv : v = erasedByte <;> simp [hv, Memory.read, Ne.symm h]
      · simp only [h1, h2, if_false, Memory.read, ih]

/-- In canonical form, an address reads as what was written to it. -/
theorem Memory.read_write_same {lo : Nat} {m : Memory} {a : Nat} (v : Byte) (h : Memory.risingFrom lo m = true) :
    (m.write a v).read a = v := by
  induction m generalizing lo with
  | nil =>
    unfold Memory.write
    split
    · rename_i hv; simp [Memory.read, hv]
    · simp [Memory.read]
  | cons c rest ih =>
    obtain ⟨k, w⟩ := c
    simp only [Memory.risingFrom, Bool.and_eq_true, decide_eq_true_eq] at h
    unfold Memory.write
    by_cases h1 : a < k
    · by_cases hv : v = erasedByte
      · have hk : k ≠ a := by omega
        simp [h1, hv, Memory.read, hk, Memory.read_below h.2 (show a < k + 1 by omega)]
      · simp [h1, hv, Memory.read]
    · by_cases h2 : a = k
      · subst h2
        by_cases hv : v = erasedByte
        · simp [hv, Memory.read_below h.2 (Nat.lt_succ_self a)]
        · simp [hv, Memory.read]
      · have hk : k ≠ a := Ne.symm h2
        simp only [h1, h2, if_false, Memory.read, hk]
        exact ih h.2

/-- Memory.writeBytes leaves the addresses below it as they read. -/
theorem Memory.read_writeBytes_below {m : Memory} {start a : Nat} (bytes : List Byte) (h : a < start) :
    (m.writeBytes start bytes).read a = m.read a := by
  induction bytes generalizing m start with
  | nil => rfl
  | cons b bytes ih =>
    rw [Memory.writeBytes, ih (by omega), Memory.read_write_other b (by omega)]

/-- Memory.writeBytes leaves the addresses past it as they read. -/
theorem Memory.read_writeBytes_past {m : Memory} {start a : Nat} (bytes : List Byte) (h : start + bytes.length ≤ a) :
    (m.writeBytes start bytes).read a = m.read a := by
  induction bytes generalizing m start with
  | nil => rfl
  | cons b bytes ih =>
    simp only [List.length_cons] at h
    rw [Memory.writeBytes, ih (by omega), Memory.read_write_other b (by omega)]

/-- In canonical form, Memory.writeBytes makes each address it covers read as its byte. -/
theorem Memory.read_writeBytes {m : Memory} (start : Nat) (bytes : List Byte) (i : Nat) (hm : m.wf = true)
    (hi : i < bytes.length) : (m.writeBytes start bytes).read (start + i) = bytes.getD i erasedByte := by
  induction bytes generalizing m start i with
  | nil => simp at hi
  | cons b bytes ih =>
    rw [Memory.writeBytes]
    cases i with
    | zero =>
      rw [Memory.read_writeBytes_below bytes (by omega)]
      simpa using Memory.read_write_same b hm
    | succ i =>
      have := ih (m := m.write start b) (start + 1) i (Memory.write_wf start b hm) (by simpa using hi)
      rw [show start + (i + 1) = start + 1 + i by omega, this]
      simp

/-- In canonical form, the bytes written are the bytes read back. -/
theorem Memory.readBytes_writeBytes {m : Memory} (start : Nat) (bytes : List Byte) (hm : m.wf = true) :
    (m.writeBytes start bytes).readBytes start bytes.length = bytes := by
  apply List.ext_getElem
  · simp [Memory.readBytes]
  · intro i h1 h2
    simp only [Memory.readBytes, List.getElem_map, List.getElem_range]
    rw [Memory.read_writeBytes start bytes i hm h2]
    simp [List.getD_eq_getElem?_getD, List.getElem?_eq_getElem h2]

end Sys2Proof.Machine
end

