-- ==== Sys2Proof/Laws/Store.lean ====
section
/-! SUPPORT. The frame of the History Store's and Scale State's shared operations, the taking of a command, and the array kept
in canonical form by every operation of the store. -/

namespace Sys2Proof.Machine

/-! ## Commands -/

/-- A command acts where the REQUEST phase waits for it and no reset holds (R170, R171). -/
theorem State.takeCommand_acts {s : State} (code : Nat) (p : List Byte) (act : State → State) (h : s.held = false)
    (hp : s.cp.phase = .request) :
    s.takeCommand code p act = act { s with cp := { s.cp with request := s.cp.request ++ commandBytes code p } } := by
  simp [State.takeCommand, h, hp]

/-- A command outside the REQUEST phase, or while a reset holds, does nothing (R170, R171). -/
theorem State.takeCommand_idle {s : State} (code : Nat) (p : List Byte) (act : State → State)
    (h : s.held = true ∨ s.cp.phase ≠ .request) : s.takeCommand code p act = s := by
  unfold State.takeCommand
  rcases h with h | h <;> simp [h]

/-! ## The History Store -/

/-- The state but for the History Store and the event queue. -/
def State.outsideStore (s : State) : State := { s.sansEvents with hs := .reset [] }

theorem State.putStore_outsideStore (s : State) (h : HistoryStore) : (s.putStore h).outsideStore = s.outsideStore := rfl

theorem State.raise_outsideStore (s : State) (e : Event) : (s.raise e).outsideStore = s.outsideStore := by
  have h : ({ (s.raise e).sansEvents with hs := .reset [] } : State) = { s.sansEvents with hs := .reset [] } := by
    rw [State.raise_sansEvents]
  exact h

theorem State.discardQueued_outsideStore (s : State) (c : GapCause) (l : List HistoryRecord) :
    (s.discardQueued c l).outsideStore = s.outsideStore := by
  unfold State.discardQueued
  split
  · rfl
  · unfold State.raiseGap; rw [State.raise_outsideStore, State.putStore_outsideStore]

theorem State.enterFailed_outsideStore (s : State) (c : StoreFaultCause) : (s.enterFailed c).outsideStore = s.outsideStore := by
  unfold State.enterFailed
  rw [State.discardQueued_outsideStore, State.raise_outsideStore, State.putStore_outsideStore]

theorem State.enterInhibited_outsideStore (s : State) : s.enterInhibited.outsideStore = s.outsideStore := by
  unfold State.enterInhibited; rw [State.discardQueued_outsideStore, State.putStore_outsideStore]

theorem State.beginWrite_outsideStore (s : State) : s.beginWrite.outsideStore = s.outsideStore := by
  unfold State.beginWrite
  split
  · rfl
  · split
    · exact s.enterFailed_outsideStore _
    · split <;> rfl

theorem State.settleStore_outsideStore (s : State) : s.settleStore.outsideStore = s.outsideStore := by
  unfold State.settleStore
  split
  · exact s.enterInhibited_outsideStore
  · exact s.beginWrite_outsideStore

/-- Posting a record changes the History Store alone (R160). -/
theorem State.postRecord_outsideStore (s : State) (r : HistoryRecord) : (s.postRecord r).outsideStore = s.outsideStore := by
  have hd (c : GapCause) : (s.discardPosted c r).outsideStore = s.outsideStore := by
    unfold State.discardPosted State.raiseGap
    split
    · rfl
    · rw [State.raise_outsideStore, State.putStore_outsideStore]
  have hq : (if s.hs.queue.length < 4 then
      (if s.hs.state = .idle then (s.putStore { s.hs with queue := s.hs.queue ++ [r] }).beginWrite
        else s.putStore { s.hs with queue := s.hs.queue ++ [r] })
      else s.raiseGap .queueFull 1 r).outsideStore = s.outsideStore := by
    split
    · split
      · rw [State.beginWrite_outsideStore, State.putStore_outsideStore]
      · rfl
    · exact s.raise_outsideStore _
  unfold State.postRecord
  split
  · exact hd _
  · exact hd _
  all_goals exact hq

/-- The end of a program changes the History Store alone (R162, R163). -/
theorem State.programComplete_outsideStore (s : State) (b : List Byte) :
    (s.programComplete b).outsideStore = s.outsideStore := by
  unfold State.programComplete State.verified
  split
  · dsimp only
    split
    · rw [State.settleStore_outsideStore, State.putStore_outsideStore]
    · rfl
  all_goals rfl

/-- The end of a voiding changes the History Store alone (R163). -/
theorem State.voidComplete_outsideStore (s : State) : s.voidComplete.outsideStore = s.outsideStore := by
  unfold State.voidComplete
  split
  · dsimp only
    split
    · rw [State.enterInhibited_outsideStore, State.putStore_outsideStore]
    · split
      · rw [State.beginWrite_outsideStore, State.putStore_outsideStore, State.putStore_outsideStore]
      · rw [State.enterFailed_outsideStore, State.putStore_outsideStore]
  all_goals rfl

/-- The end of an erase changes the History Store alone (R164). -/
theorem State.eraseComplete_outsideStore (s : State) (b : List Byte) : (s.eraseComplete b).outsideStore = s.outsideStore := by
  unfold State.eraseComplete
  split
  · dsimp only
    split
    · rw [State.settleStore_outsideStore, State.putStore_outsideStore, State.putStore_outsideStore]
    · split
      · rw [State.enterInhibited_outsideStore, State.putStore_outsideStore]
      · split
        · rw [State.putStore_outsideStore, State.putStore_outsideStore]
        · rw [State.enterFailed_outsideStore, State.putStore_outsideStore]
  all_goals rfl

/-- PREPARE_EXTRACTION changes the History Store alone (R166). -/
theorem State.prepareExtraction_outsideStore (s : State) : s.prepareExtraction.outsideStore = s.outsideStore := by
  unfold State.prepareExtraction
  split
  · exact s.enterInhibited_outsideStore
  all_goals rfl

/-! ## The array in canonical form -/

@[simp] theorem State.enterFailed_array (s : State) (c : StoreFaultCause) : (s.enterFailed c).hs.array = s.hs.array := by
  unfold State.enterFailed State.discardQueued
  split <;> rfl

@[simp] theorem State.enterInhibited_array (s : State) : s.enterInhibited.hs.array = s.hs.array := by
  unfold State.enterInhibited State.discardQueued
  split <;> rfl

@[simp] theorem State.beginWrite_array (s : State) : s.beginWrite.hs.array = s.hs.array := by
  unfold State.beginWrite
  split
  · rfl
  · split
    · exact s.enterFailed_array _
    · split <;> rfl

@[simp] theorem State.settleStore_array (s : State) : s.settleStore.hs.array = s.hs.array := by
  unfold State.settleStore
  split
  · exact s.enterInhibited_array
  · exact s.beginWrite_array

/-- What the end of an operation leaves in the array: it stays in canonical form. -/
theorem State.programComplete_wf (s : State) (b : List Byte) (h : s.hs.array.wf = true) :
    (s.programComplete b).hs.array.wf = true := by
  unfold State.programComplete State.verified
  split
  · dsimp only
    split
    · rw [State.settleStore_array]; simp only [State.putStore_hs]; exact Memory.writeBytes_wf _ _ h
    · exact h
  all_goals exact h

theorem State.voidComplete_wf (s : State) (h : s.hs.array.wf = true) : s.voidComplete.hs.array.wf = true := by
  unfold State.voidComplete
  split
  · dsimp only
    split
    · rw [State.enterInhibited_array]; simp only [State.putStore_hs]; exact Memory.writeBytes_wf _ _ h
    · split
      · rw [State.beginWrite_array]; simp only [State.putStore_hs]; exact Memory.writeBytes_wf _ _ h
      · rw [State.enterFailed_array]; simp only [State.putStore_hs]; exact Memory.writeBytes_wf _ _ h
  all_goals exact h

theorem State.eraseComplete_wf (s : State) (b : List Byte) (h : s.hs.array.wf = true) :
    (s.eraseComplete b).hs.array.wf = true := by
  unfold State.eraseComplete
  split
  · dsimp only
    split
    · rw [State.settleStore_array]; simp only [State.putStore_hs]; exact Memory.writeBytes_wf _ _ h
    · split
      · rw [State.enterInhibited_array]; simp only [State.putStore_hs]; exact Memory.writeBytes_wf _ _ h
      · split
        · simp only [State.putStore_hs]; exact Memory.writeBytes_wf _ _ h
        · rw [State.enterFailed_array]; simp only [State.putStore_hs]; exact Memory.writeBytes_wf _ _ h
  all_goals exact h

/-- What a reset leaves of an operation is in canonical form too (R169). -/
theorem HistoryStore.stopped_wf (h : HistoryStore) (free : Nat → Byte) (hw : h.array.wf = true) :
    (h.stopped free).wf = true := by
  unfold HistoryStore.stopped
  split
  · exact hw
  all_goals exact Memory.writeBytes_wf _ _ hw

/-- What an erase that failed or was cut short leaves of a slot: what it held, or cells that are no VALID slot (R157, R169). -/
theorem partErased_or (old raised : List Byte) : partErased old raised = old ∨ slotClass (partErased old raised) ≠ .valid := by
  unfold partErased
  dsimp only
  split
  · exact .inl rfl
  · rename_i h; exact .inr h

/-- A program cut short leaves a slot of 20 bytes. -/
theorem tornSlot_length (old bytes : List Byte) (free : Nat → Byte) (h : bytes.length = 20) :
    (tornSlot old bytes free).length = 20 := by
  unfold tornSlot partSlot
  dsimp only
  repeat' split
  all_goals simp [h]

/-- A program cut short leaves the slot TORN, whatever the cells are left with (R169). -/
theorem tornSlot_class (old bytes : List Byte) (free : Nat → Byte) (h : bytes.length = 20)
    (hb : ∃ b ∈ bytes.take 19, b ≠ erasedByte) : slotClass (tornSlot old bytes free) = .torn := by
  obtain ⟨b, hm, hne⟩ := hb
  have hl : (bytes.take 19).length = 19 := by simp [h]
  have ha : (bytes.take 19 ++ [erasedByte]).all (fun b => b == erasedByte) = false :=
    List.all_eq_false.mpr ⟨b, List.mem_append_left _ hm, by simpa using hne⟩
  have hg : (bytes.take 19 ++ [erasedByte]).getD 19 0 = erasedByte := by simp [List.getD, hl]
  unfold tornSlot
  dsimp only
  split
  · assumption
  · unfold slotClass
    rw [ha, hg]
    rfl

/-- The order of a program that is cut short in a slot that reads erased: the marker is untouched, or every other byte is as it was
meant (R156). -/
theorem tornSlot_order (old bytes : List Byte) (free : Nat → Byte) (h : bytes.length = 20)
    (he : ∀ i, old.getD i erasedByte = erasedByte) :
    (tornSlot old bytes free).getD 19 0 = erasedByte
      ∨ ∀ i, i < 19 → (tornSlot old bytes free).getD i 0 = bytes.getD i 0 := by
  have hl : (bytes.take 19).length = 19 := by simp [h]
  have hp (b : Byte) : partProgrammed erasedByte b 0#8 = b := by
    show erasedByte &&& (b ||| 0#8) = b
    rw [BitVec.or_zero, show erasedByte = BitVec.allOnes 8 from rfl, BitVec.allOnes_and]
  have hs : (partSlot old bytes free).getD 19 0 = erasedByte
      ∨ ∀ i, i < 19 → (partSlot old bytes free).getD i 0 = bytes.getD i 0 := by
    unfold partSlot
    simp only [he]
    split
    · left; simp [List.getD]
    · right
      intro i hi
      simp [List.getD, List.getElem?_append_left, hi, hp]
  unfold tornSlot
  dsimp only
  split
  · exact hs
  · left; simp [List.getD, hl]

/-- A voided slot is TORN (R157, R163). -/
theorem voided_class (cells : List Byte) (h : cells.length = 20) : slotClass (voided cells) = .torn := by
  have hl : (cells.take 19).length = 19 := by simp [h]
  have hm : (voided cells).getD 19 0 = 0 := by simp [voided, List.getD, hl]
  have ha : (voided cells).all (fun b => b == erasedByte) = false := by simp [voided, erasedByte]
  unfold slotClass; rw [ha, hm]; rfl

/-- A voiding cut short leaves the slot TORN or CORRUPT, whatever the cells are left with (R169). -/
theorem partVoided_class (cells : List Byte) (free : Nat → Byte) (h : cells.length = 20) :
    slotClass (partVoided cells free) = .torn ∨ slotClass (partVoided cells free) = .corrupt := by
  unfold partVoided
  dsimp only
  split
  · assumption
  · exact .inl (voided_class cells h)

/-! ## Scale State -/

/-- The state but for Scale State, the History Store, Scale State's notices and the event queue. -/
def State.outsideScale (s : State) : State :=
  { s.sansEvents with
    ss := .reset, hs := .reset []
    mail :=
      { s.mail with
        candidateScale := [], sourceScale := [], peerTableScale := [], appliedChange := [], handOver := [], second := [] } }

theorem State.outsideScale_of_store {s t : State} (h : s.outsideStore = t.outsideStore) : s.outsideScale = t.outsideScale := by
  have h' : s.outsideStore.outsideScale = t.outsideStore.outsideScale := by rw [h]
  exact h'

theorem State.outsideScale_of_events {s t : State} (h : s.sansEvents = t.sansEvents) : s.outsideScale = t.outsideScale := by
  have h' : s.sansEvents.outsideScale = t.sansEvents.outsideScale := by rw [h]
  exact h'

/-- Step 5 of the work of an edge changes Scale State, the History Store and the notices (R133 to R135). -/
theorem State.giveScaleWork_outsideScale (s : State) (o : Bool) (t : Option Nat) (b : ScaleState) (es : List Event)
    (w : ScaleWork) :
    (s.giveScaleWork o t b es w).outsideScale = s.outsideScale := by
  unfold State.giveScaleWork
  dsimp only
  rw [foldl_keeps State.outsideScale _ (fun s r => State.outsideScale_of_store (s.postRecord_outsideStore r))]
  have hn (u : State) : (u.scaleNotices o b).outsideScale = u.outsideScale := by
    unfold State.scaleNotices State.giveScale; split <;> rfl
  rw [hn]
  have hr := State.outsideScale_of_events (State.raiseAllAt_sansEvents { s with ss := w.ss } t es)
  have hm (u : State) (l : List (ChangeKind × Nat)) :
      ({ u with mail := { u.mail with appliedChange := l } } : State).outsideScale = u.outsideScale := rfl
  rw [hm]
  exact hr

/-- The edge work of Scale State changes Scale State, the History Store and the notices (R123). -/
theorem State.edgeWork_outsideScale (s : State) (h : HandOver) : (s.edgeWork h).outsideScale = s.outsideScale := by
  show (State.giveScaleWork _ _ _ _ _ _).outsideScale = _
  exact s.giveScaleWork_outsideScale _ _ _ _ _

theorem State.takeHandOver_outsideScale (s : State) : s.takeHandOver.outsideScale = s.outsideScale := by
  unfold State.takeHandOver
  split
  · rfl
  · rw [State.edgeWork_outsideScale]; rfl

theorem State.scaleYield_outsideScale (s : State) : s.scaleYield.outsideScale = s.outsideScale := by
  unfold State.scaleYield
  split
  · split
    · exact s.giveScaleWork_outsideScale _ _ _ _ _
    · rfl
  · rfl

/-- The end of the scan changes the History Store, Scale State and the scale notices (R159, R122). -/
theorem State.scanEnd_outsideScale (s : State) : s.scanEnd.outsideScale = s.outsideScale := by
  unfold State.scanEnd
  split
  · rw [State.outsideScale_of_store (State.settleStore_outsideStore _)]
    unfold State.takeScan State.giveScale
    split <;> rfl
  · rfl

end Sys2Proof.Machine
end

