-- ==== Sys2Proof/Laws/Wire.lean ====
section
/-! SUPPORT. What the wires carry: what a station reads back of its own frame (R58), and the request that a command's bytes and
bits spell (R170, R183, R189). -/

namespace Sys2Proof.Machine

/-- A station that drives the pair alone reads back what it drives (R58). -/
theorem readBack_alone (own : List Level) : readBack own [] = own := by
  induction own with
  | nil => rfl
  | cons a own ih => rw [readBack, ih]

/-- A level driven against a recessive one is read back (R58). -/
theorem prevailing_recessive (own : Level) : prevailing own .recessive = own := by cases own <;> rfl

/-- A frame that no other station disturbs reads back (R58). -/
theorem ViewFrame.readsBack_alone (f : ViewFrame) : f.readsBack [] = true := by
  simp [ViewFrame.readsBack, readBack_alone]

/-- The line code has one level for each half of each bit of each byte (R57). -/
theorem onPair_length (bytes : List Byte) : (onPair bytes).length = 16 * bytes.length := by
  induction bytes with
  | nil => rfl
  | cons b bytes ih =>
    have h : ((busBits b).flatMap halfBits).length = 16 := by
      have hb (x : Bool) : (halfBits x).length = 2 := by cases x <;> rfl
      simp only [busBits, List.length_flatMap, List.map_map, Function.comp_def, hb]
      rfl
    simp only [onPair, List.flatMap_cons, List.length_append, List.length_cons, h] at ih ⊢
    omega

/-- A request reads as its command: the select code, the command code, the payload length, the payload (R170, Table 11-4). -/
theorem readRequest_frame (code : Byte) (payload : List Byte) (h : payload.length ≤ 255) :
    readRequest (0x5C#8 :: code :: BitVec.ofNat 8 payload.length :: payload) = some (requestCommand code payload) := by
  have : payload.length % 256 = payload.length := Nat.mod_eq_of_lt (by omega)
  simp [readRequest, this]

/-- Eight bits read most significant first give the byte whose bits they are (R183). -/
theorem byteOfBits_bitsOf (b : Byte) : byteOfBits (bitsOf b) = b := by
  revert b; decide

/-- The bits of bytes sent on the control port read as those bytes (R183). -/
theorem bytesOfBits_bitsOf (bytes : List Byte) : bytesOfBits (bytes.flatMap bitsOf) = bytes := by
  induction bytes with
  | nil => rfl
  | cons b bytes ih =>
    have h : bytesOfBits (bitsOf b ++ bytes.flatMap bitsOf) = byteOfBits (bitsOf b) :: bytesOfBits (bytes.flatMap bitsOf) := rfl
    rw [List.flatMap_cons, h, byteOfBits_bitsOf, ih]

end Sys2Proof.Machine
end

