-- ==== Sys2Proof/Laws/Work.lean ====
section
/-! SUPPORT. What each block's shared work does, said once: the notices that it gives, the checks and the derivations of the
sources, and what the History Store does next. -/

namespace Sys2Proof.Machine

/-! ## The History Store -/

theorem State.enterFailed_does (s : State) (cause : StoreFaultCause) : s.storeFails cause (s.enterFailed cause) := by
  unfold State.storeFails State.enterFailed State.discardQueued
  cases s.hs.queue.drop 1 <;> rfl

theorem State.enterInhibited_does (s : State) : s.storeInhibited s.enterInhibited := by
  unfold State.storeInhibited State.enterInhibited State.discardQueued
  cases s.hs.queue <;> rfl

theorem HistoryStore.writableFrom_iff (h : HistoryStore) (slot : Nat) :
    h.writableFrom slot = true ↔ ∀ i, slot ≤ i → i / 16 = slot / 16 → h.classOf i = .empty := by
  simp only [HistoryStore.writableFrom, pageSlots, List.all_map, List.all_eq_true, List.mem_range, Function.comp_apply,
    Bool.or_eq_true, decide_eq_true_eq, beq_iff_eq]
  constructor
  · intro H i h1 h2
    have := H (i % 16) (Nat.mod_lt _ (by omega))
    rw [show 16 * (slot / 16) + i % 16 = i by omega] at this
    exact this.resolve_left (by omega)
  · intro H i hi
    by_cases hlt : 16 * (slot / 16) + i < slot
    · exact .inl hlt
    · exact .inr (H _ (by omega) (by omega))

theorem State.beginWrite_does (s : State) : s.beginsWrite s.beginWrite := by
  unfold State.beginsWrite State.beginWrite
  refine ⟨fun h => by simp only [h]; rfl, fun r rest h => ⟨fun hn => by simp only [h, hn]; exact s.enterFailed_does _,
    fun n hn => ⟨fun hw => ?_, fun hw => ?_⟩⟩⟩
  · simp only [h, hn, (s.hs.writableFrom_iff _).2 hw]; rfl
  · simp only [h, hn, Bool.eq_false_iff.2 (mt (s.hs.writableFrom_iff _).1 hw)]; rfl

/-! ## The Peer Table -/

theorem PeerEntry.offer_eq_offers (e : PeerEntry) : e.offer = e.offers := by
  unfold PeerEntry.offer PeerEntry.offers PeerEntry.voting PeerEntry.listing PeerEntry.entries
  cases e.state <;> cases e.timeSplit <;> cases e.view <;> simp

theorem PeerTable.scaleOffer_eq (pt : PeerTable) : pt.scaleOffer = pt.scalePeers := by
  unfold PeerTable.scaleOffer PeerTable.scalePeers
  induction pt.entries with
  | nil => rfl
  | cons e rest ih =>
    cases hv : e.view <;>
      simp only [List.filter_cons, List.filterMap_cons, PeerEntry.scalePeer, PeerEntry.listing, hv] <;>
      cases e.state <;> cases e.timeSplit <;> simp [ih]
    split <;> simp_all

/-- The notices given after the table's work are those of R85. -/
theorem State.peerNotices_does (before s : State) (h : s.mail = before.mail) :
    before.peerNoticed (s.peerNotices before.pt) := by
  refine ⟨changedAddresses before.pt s.pt, ?_, fun a => ?_, ?_⟩
  · exact List.Pairwise.filter _ List.pairwise_lt_range
  · have hf : ∀ pt : PeerTable, pt.offerOf a = (pt.find a).bind PeerEntry.offers := fun pt => by
      unfold PeerTable.offerOf; congr 1; exact funext PeerEntry.offer_eq_offers
    simp only [changedAddresses, List.mem_filter, List.mem_range, hf, State.peerNotices, Bool.or_eq_true, bne_iff_ne,
      Bool.and_eq_true, Option.isNone_iff_eq_none]
    constructor <;> rintro ⟨ha, hb⟩ <;> refine ⟨ha, hb.imp (fun x => ?_) id⟩ <;> exact fun y => x y.symm
  · simp only [State.peerNotices, h, PeerTable.scaleOffer_eq]

/-! ## Source Intake -/

/-- Events raised one list after another are raised as one list. -/
theorem State.raiseAll_append (s : State) (a b : List Event) : s.raiseAll (a ++ b) = (s.raiseAll a).raiseAll b := by
  have h : (s.raiseAll a).eventT = s.eventT := by simp [State.eventT]
  simp only [State.raiseAll, State.raiseAllAt, List.foldl_append] at h ⊢
  rw [h]

theorem takeEach_length {α : Type} (f : Nat → α → α × List Event) (k : Nat) (l : List α) :
    (takeEach f k l).1.length = l.length := by
  induction l generalizing k with
  | nil => rfl
  | cons a rest ih => simp [takeEach, ih]

theorem takeEach_get {α : Type} (f : Nat → α → α × List Event) (k i : Nat) (l : List α) :
    (takeEach f k l).1[i]? = l[i]?.map (fun a => (f (k + i) a).1) := by
  induction l generalizing k i with
  | nil => rfl
  | cons a rest ih =>
    cases i with
    | zero => rfl
    | succ i => simp only [takeEach, List.getElem?_cons_succ, ih, show k + 1 + i = k + (i + 1) by omega]

/-- The events that the records of a list raise, index by index. -/
theorem takeEach_events {α : Type} (f : Nat → α → α × List Event) (k : Nat) (l : List α) :
    (takeEach f k l).2 =
      (List.range l.length).flatMap (fun i => (l[i]?.map (fun a => (f (k + i) a).2)).getD []) := by
  induction l generalizing k with
  | nil => rfl
  | cons a rest ih =>
    simp only [takeEach, ih, List.length_cons, List.range_succ_eq_map, List.flatMap_cons, List.flatMap_map,
      List.getElem?_cons_zero, List.getElem?_cons_succ, Nat.add_zero]
    congr 2
    funext i
    rw [show k + 1 + i = k + (i + 1) by omega]

/-- What a list of events leaves of the Control Port depends on the Control Port and the time alone. -/
theorem State.raiseAll_cp_congr {a b : State} (es : List Event) (h : a.cp = b.cp) (ht : a.tb = b.tb) :
    (a.raiseAll es).cp = (b.raiseAll es).cp := by
  have hall : ∀ (t : Option Nat) (a b : State), a.cp = b.cp → (a.raiseAllAt t es).cp = (b.raiseAllAt t es).cp := by
    intro t
    induction es with
    | nil => exact fun _ _ h => h
    | cons e es ih => exact fun a b h => ih _ _ (by simp [h])
  unfold State.raiseAll
  rw [show a.eventT = b.eventT by simp [State.eventT, ht]]
  exact hall _ _ _ h

theorem State.putSources_cp (s : State) (r : List SourceRecord × List Event) : (s.putSources r).cp = (s.raiseAll r.2).cp :=
  State.raiseAll_cp_congr r.2 rfl rfl

@[simp] theorem State.putSources_si (s : State) (r : List SourceRecord × List Event) :
    (s.putSources r).si = { s.si with sources := r.1 } := by simp [State.putSources]

@[simp] theorem State.putSources_tb (s : State) (r : List SourceRecord × List Event) : (s.putSources r).tb = s.tb := by
  simp [State.putSources]

/-- What the check of one source does, outside an intake (R46). -/
theorem State.recheckSource_does (s : State) (p : Params) (i : Nat) (r : SourceRecord) (h : s.params = some p) :
    let r' := (s.recheckSource i r).1
    let checked : Prop := r.settled.isSome = true ∧ p.nd ≤ r.repeats ∧ r.status ≠ .stale
    (∀ o, r.settled = some o → checked → (r'.status, r'.standing) = s.offsetCheck o)
      ∧ (¬checked → r'.status = r.status ∧ r'.standing = r.standing)
      ∧ (s.recheckSource i r).2 =
        (match r.settled with
        | none => []
        | some o =>
          if r'.status = .fresh ∧ r.status ≠ .fresh then [.sourceFresh i o.d]
          else if r'.status = .discordant ∧ r.status ≠ .discordant then
            [.sourceDiscordant i o.d (match s.ss.d with | some d => d | none => 10)]
          else [])
      ∧ r' = { r with status := r'.status, standing := r'.standing } := by
  have hd : s.dNow = (match s.ss.d with | some d => d | none => 10) := by cases hd : s.ss.d <;> simp [State.dNow, hd]
  obtain ⟨status, standing, last, repeats, age, settled, unusable, keys⟩ := r
  cases settled with
  | none => simp [State.recheckSource, h]
  | some o =>
    by_cases hc : p.nd ≤ repeats ∧ status ≠ .stale
    · simp only [State.recheckSource, h, if_pos hc, State.checkedSource, statusEvents, hd]
      exact ⟨fun o' ho' _ => by cases ho'; rfl, fun hn => absurd ⟨rfl, hc⟩ hn, trivial, trivial⟩
    · simp only [State.recheckSource, h, if_neg hc]
      exact ⟨fun _ _ hn => absurd hn.2 hc, fun _ => ⟨trivial, trivial⟩, by simp, trivial⟩

/-- The keys derived depend on the time, the scale, the counter of the free values and the applied change alone. -/
theorem State.deriveSource_congr {a b : State} (i : Nat) (r : SourceRecord) (ht : a.tb = b.tb) (hs : a.ss = b.ss)
    (hf : a.free = b.free) (ha : a.si.applied = b.si.applied) : a.deriveSource i r = b.deriveSource i r := by
  have hk : ∀ o, a.reportKeys o = b.reportKeys o := fun o => by
    simp only [State.reportKeys, State.leapKey, State.flagSuppressed, State.flagDay, State.dNow, ht, hs, hf, ha]
    rfl
  have hc : a.scaled = b.scaled := by simp only [State.scaled, ht, hs]
  simp only [State.deriveSource, hk, hc, hs]

/-- A derivation leaves the status and the standing (R41). -/
theorem State.deriveSource_keeps (s : State) (i : Nat) (r : SourceRecord) :
    (s.deriveSource i r).1.status = r.status ∧ (s.deriveSource i r).1.standing = r.standing := by
  unfold State.deriveSource
  split
  · split
    · exact ⟨rfl, rfl⟩
    · split <;> exact ⟨rfl, rfl⟩
  · exact ⟨rfl, rfl⟩

/-- What the checks make of the sources, and with the derivations, is what sourcesChecked says. -/
theorem State.recheckSources_does (s : State) : s.sourcesChecked false s.recheckSources := by
  refine ⟨by simp [State.recheckSources, takeEach_length],
    fun i => (s.si.sources[i]?.map (fun a => (s.recheckSource i a).2)).getD [], fun _ => [], ?_, ?_⟩
  · rw [show s.recheckSources.cp = _ from State.putSources_cp _ _, takeEach_events]
    have hn : (List.range s.si.sources.length).flatMap (fun _ => ([] : List Event)) = [] := by simp
    simp only [Nat.zero_add, hn, List.append_nil]
  · intro i r r' p hp hr hr'
    have hd := s.recheckSource_does p i r hp
    simp only [State.recheckSources, State.putSources_si, takeEach_get, hr, Nat.zero_add, Option.map_some,
      Option.some.injEq] at hr'
    subst hr'
    simp only [hr]
    exact ⟨hd.1, hd.2.1, hd.2.2.1, by simpa using hd.2.2.2⟩

theorem State.deriveSources_does (s : State) : s.sourcesChecked true s.recheckSources.deriveSources := by
  have hd : ∀ i r, s.recheckSources.deriveSource i r = s.deriveSource i r := fun i r =>
    State.deriveSource_congr i r (by simp [State.recheckSources]) (by simp [State.recheckSources, State.putSources])
      (by simp [State.recheckSources, State.putSources]) (by simp [State.recheckSources])
  have hcp : s.recheckSources.deriveSources.cp =
      (s.recheckSources.raiseAll (takeEach s.recheckSources.deriveSource 0 s.recheckSources.si.sources).2).cp :=
    State.putSources_cp _ _
  refine ⟨by simp [State.deriveSources, State.recheckSources, takeEach_length],
    fun i => (s.si.sources[i]?.map (fun a => (s.recheckSource i a).2)).getD [],
    fun i => (s.recheckSources.si.sources[i]?.map (fun a => (s.deriveSource i a).2)).getD [], ?_, ?_⟩
  · have hr : s.recheckSources.cp = (s.raiseAll (takeEach s.recheckSource 0 s.si.sources).2).cp := State.putSources_cp _ _
    have hl : s.recheckSources.si.sources.length = s.si.sources.length := by simp [State.recheckSources, takeEach_length]
    rw [hcp, State.raiseAll_append]
    rw [State.raiseAll_cp_congr (b := s.raiseAll (takeEach s.recheckSource 0 s.si.sources).2) _ hr (by simp [State.recheckSources])]
    simp only [takeEach_events, Nat.zero_add, hl, hd]
  · intro i r r' p hp hr hr'
    have hc := s.recheckSource_does p i r hp
    have hm : s.recheckSources.si.sources[i]? = some (s.recheckSource i r).1 := by
      simp [State.recheckSources, takeEach_get, hr]
    have hm' : s.recheckSources.deriveSources.si.sources[i]? = some (s.deriveSource i (s.recheckSource i r).1).1 := by
      simp [State.deriveSources, takeEach_get, hm, hd]
    obtain rfl : (s.deriveSource i (s.recheckSource i r).1).1 = r' := by simpa [hm'] using hr'
    have hk := s.deriveSource_keeps i (s.recheckSource i r).1
    simp only [hr, hm, hk.1, hk.2]
    exact ⟨hc.1, hc.2.1, hc.2.2.1, by rw [← hc.2.2.2]; rfl⟩

/-- What the sweep of the operator entry does (R55). -/
theorem State.sweepOperator_does (s : State) : s.operatorSwept s.sweepOperator := by
  have hk : ∀ items, (s.keepItems items).si.operator = items := fun items => by
    unfold State.keepItems
    split
    · rename_i h; exact h.symm
    · rfl
  refine ⟨fun h => ?_, fun d ht hu hd => ?_⟩
  · have hs : s.scaled = false := by rcases h with h | h <;> simp [State.scaled, h]
    simp [State.sweepOperator, hs]
  · have hs : s.scaled = true := by simp [State.scaled, ht, hu, hd]
    simp only [State.sweepOperator, hs, if_true, hk]
    refine congrArg (fun f => s.si.operator.filter f) (funext fun i => ?_)
    simp only [State.itemLapsed, State.dNow, hd, Option.getD_some, Bool.not_or, Bool.not_not]
    congr 1
    by_cases h : i.key.epoch d ≤ (s.tb.t : Int)
    · simp [h, Int.not_lt.2 h]
    · simp [h, Int.not_le.1 h]

theorem State.sourcesChecked_congr {derive : Bool} {s t u : State} (hs : t.si.sources = u.si.sources) (hc : t.cp = u.cp)
    (h : s.sourcesChecked derive t) : s.sourcesChecked derive u := by
  unfold State.sourcesChecked at h ⊢
  rwa [← hs, ← hc]

/-- The operator entry replaced, and the notices given of what the whole work has changed (R44, R45, R52). -/
theorem State.sourceNotices_does (s w : State) (items : List OperatorItem) (hm : w.mail = s.mail)
    (ho : w.si.operator = s.si.operator) : s.sourceNoticed ((w.keepItems items).sourceNotices s.si) := by
  unfold State.keepItems
  split
  · rename_i h
    simp [State.sourceNoticed, State.sourceNotices, SourceIntake.offer, SourceIntake.offeredDs, hm, ho]
  · rename_i h
    rw [ho] at h
    simp [State.sourceNoticed, State.sourceNotices, SourceIntake.offer, SourceIntake.offeredDs, hm, h]

/-- The whole work of a scale notice on Source Intake, the notice itself already taken (R41, R44 to R46, R55). -/
theorem State.takeSourceScale_does (s : State) :
    s.sourcesChecked true s.takeSourceScale ∧ s.operatorSwept s.takeSourceScale ∧ s.sourceNoticed s.takeSourceScale := by
  have hw : s.recheckSources.deriveSources.mail = s.mail := by
    simp [State.deriveSources, State.recheckSources, State.putSources]
  have ho : s.recheckSources.deriveSources.si.operator = s.si.operator := by
    simp [State.deriveSources, State.recheckSources]
  have hk : ∀ (w : State) items, (w.keepItems items).si.sources = w.si.sources ∧ (w.keepItems items).cp = w.cp := by
    intro w items; unfold State.keepItems; split <;> exact ⟨rfl, rfl⟩
  have hsw : ∃ items, s.recheckSources.deriveSources.sweepOperator = s.recheckSources.deriveSources.keepItems items := by
    unfold State.sweepOperator
    split
    · exact ⟨_, rfl⟩
    · exact ⟨_, (if_pos rfl).symm⟩
  obtain ⟨items, hsw⟩ := hsw
  refine ⟨?_, ?_, ?_⟩
  · refine State.sourcesChecked_congr ?_ ?_ s.deriveSources_does <;> simp only [State.takeSourceScale, hsw, State.sourceNotices]
    · exact (hk _ _).1.symm
    · exact (hk _ _).2.symm
  · have h := s.recheckSources.deriveSources.sweepOperator_does
    unfold State.operatorSwept at h ⊢
    simpa [State.takeSourceScale, State.sourceNotices, State.deriveSources, State.recheckSources, State.putSources] using h
  · unfold State.takeSourceScale
    rw [hsw]
    exact State.sourceNotices_does s _ items hw ho

end Sys2Proof.Machine
end

