-- ==== Sys2Proof/Tests/Slice0.lean ====
section
/-! SUPPORT. Tests: the checks of WellFormed, values that the spec itself works out, single steps on small states, and for
every obligation with hypotheses a witness that meets them, clause by clause. -/

namespace Sys2Proof.Tests

open Sys2Proof.Machine

/-! ## WellFormed: each check refuses an ill-formed term -/

set_option maxRecDepth 8000 in
theorem test_wf_payload : Instr.wf (.loadTime (List.replicate 256 0)) = false := by decide
theorem test_wf_source : Instr.wf (.sourceStale 4) = false := by decide
theorem test_wf_address : Instr.wf (.peerSilent 32) = false := by decide
theorem test_wf_code : Instr.wf (.unknownCommand 0x0D []) = false := by decide
theorem test_wf_odd_bits : Instr.wf (.frameReceived [] 8) = false := by decide
theorem test_wf_slot : Instr.wf (.programComplete (List.replicate 19 0)) = false := by decide
set_option maxRecDepth 8000 in
theorem test_wf_page : Instr.wf (.eraseComplete (List.replicate 321 0xFF)) = false := by decide
theorem test_wf_accepts : Instr.wf (.unknownCommand 0x0E []) = true := by decide

/-! ## Values that the spec works out -/

set_option maxRecDepth 8000 in
/-- R184: the CRC over "123456789". -/
theorem test_crc : crc16 [0x31, 0x32, 0x33, 0x34, 0x35, 0x36, 0x37, 0x38, 0x39] = 0x29B1#16 := by decide

/-- R8, R124: the second inserted at the end of 2016, a Saturday. -/
theorem test_calendar_inserted_second :
    (convertLabel (utcLabel 1420156826 37) true).fields =
      { year := 2016, month := 12, day := 31, hour := 23, minute := 59, second := 60, weekday := 6 } := by decide

/-- R9: the fixed fields beyond the calendar. -/
theorem test_calendar_out_of_range :
    convertLabel 4039372800 true =
      { outOfRange := true
        fields := { year := 2099, month := 12, day := 31, hour := 23, minute := 59, second := 59, weekday := 4 } } := by
  decide

/-- R10: the year 2016 is packed as 0x20 and 0x16. -/
theorem test_bcd_year : [bcd (2016 / 100), bcd (2016 % 100)] = [0x20#8, 0x16#8] := by decide

/-- R17: the month after a label of December 2016 begins on day 16,437, that after December 2099 on day 46,752. -/
theorem test_month_end :
    nextMonthDay (16436 * 86400) = some 16437 ∧ nextMonthDay (46751 * 86400) = some 46752 := by decide

/-- The insertion of the end of 2016. -/
def insertion : Key := { kind := .leapInsert, target := .utc, day := 16437, value := none }

/-- R15: epoch and window end of the insertion and of a deletion of the same day, at D = 36. -/
theorem test_window_ends :
    insertion.windowEnd 36 = 1420156827
      ∧ ({ insertion with kind := .leapDelete } : Key).windowEnd 36 = 1420156825 := by decide

/-- R14: the deletion of 2017-07-01 moves by a second once the insertion has been applied. -/
theorem test_epoch_moves :
    (({ insertion with kind := .leapDelete, day := 16618 } : Key).epoch 36,
      ({ insertion with kind := .leapDelete, day := 16618 } : Key).epoch 37) = (1435795225, 1435795226) := by decide

/-- R16: an insertion and a deletion of one day are rivals; a key is no rival of itself. -/
theorem test_rivals :
    insertion.rival { insertion with kind := .leapDelete } = true ∧ insertion.rival insertion = false := by decide

/-- Table 1-1, R7: the last day of February 2000 is the 29th. -/
theorem test_leap_february :
    ((convertLabel (10286 * 86400) false).fields.month, (convertLabel (10286 * 86400) false).fields.day) = (2, 29) := by
  decide

/-! ## Small states -/

/-- A commission record's parameters. -/
def params : Params :=
  { address := 3, qmin := 2, hd := 48, ha := 3600, p := 9, pc := 2, peerTimeout := 30, sourceTimeout := 60, nd := 3
    yieldDelay := 60, tau := 500 }

/-- The part after reset with a transaction that waits for a command. -/
def asked : State := { State.reset with cp := { State.reset.cp with phase := .request, request := [selectCode] } }

/-- The Time Base of a locked station a second before the insertion's epoch. -/
def lockedTime : TimeBase :=
  { TimeBase.reset with
    t := 1420156825, timeState := .set, pulseState := .locked, nominal := some 20000000, tolerance := 500
    lastEdge := some 20000000 }

/-- An ACTIVE station with T SET and D = 36 CONFIRMED, its store idle. -/
def station : State :=
  { State.reset with
    tb := lockedTime, sbi := { ScaleBus.reset with participation := .active }, params := some params
    ss := { ScaleState.reset with d := some 36, status := .confirmed }, hs := { HistoryStore.reset [] with state := .idle } }

/-- The station with a transaction that waits for a command. -/
def asking : State := { station with cp := { station.cp with phase := .request, request := [selectCode] } }

/-- The station with another pulse state. -/
def pulsed (p : PulseState) : State := { station with tb := { lockedTime with pulseState := p } }

/-- The hand-over of one due change. -/
def due (load : LoadIndication) (t : Nat) (k : Key) (epoch : Int) : HandOver :=
  { t := t, timeState := .set, pulseState := .locked, load := load, due := [(k, epoch)] }

/-- The station with a hand-over that waits. -/
def handed (h : HandOver) : State := { station with mail := { Mail.reset with handOver := [h] } }

/-- A property of the state that a command leaves; false where it does not complete. -/
def after (c : Instr) (s : State) (p : State → Bool) : Bool :=
  match exec c s with
  | .next t => p t
  | .fault _ | .refused _ => false

/-! ## Single steps -/

/-- R32: the largest load is taken, the next value is refused with field index 1. -/
theorem test_load_time :
    after (.loadTime [0xF0, 0xC3, 0xEF, 0xFF]) asked (fun t => t.tb.pendingLoad == some 4039372799) = true
      ∧ after (.loadTime [0xF0, 0xC3, 0xF0, 0x00]) asked
        (fun t => t.tb.pendingLoad == none && t.cp.response == some { status := .range, body := [1] }) = true := by decide

/-- R172: COMMISSION is BUSY while the store scans. -/
theorem test_commission_busy :
    after (.commission (List.replicate 77 0)) asked (fun t => t.cp.response == some { status := .busy, body := [] }) = true := by
  decide

/-- R37: a leap day with the indicator NONE fails at field 4. -/
theorem test_observe_range :
    after (.observe [0, 36, 0, 0x40, 0x35, 0xFF, 0, 0, 0, 0, 0, 0]) asking
      (fun t => t.cp.response == some { status := .range, body := [4] }) = true := by decide

/-- R38, R39: the first observation of a source is counted once and leaves it SETTLING. -/
theorem test_observe_counts :
    after (.observe [1, 36, 1, 0x40, 0x35, 0xFF, 0, 0, 0, 0, 0, 0]) asking
      (fun t =>
        t.cp.response == some { status := .ok, body := [2, 1] }
          && (t.si.sources.map (·.last)) ==
            [none, some { d := 36, leap := .insert, day := some 16437, change := none }, none, none]) = true := by decide

/-- R54: a stale version is answered with the version that stands and the entry, here with neither of its two items. -/
theorem test_operator_entry_mismatch :
    after (.setOperatorEntry [0, 0, 1]) asking
      (fun t => t.cp.response == some { status := .versionMismatch, body := [0, 0, 0, 0] }) = true := by decide

/-- R175: a reset part reports DORMANT, UNSET, SEEKING, D as 0 and UNKNOWN. -/
theorem test_read_status :
    after (.readStatus []) asked
      (fun t =>
        (t.cp.response.map (·.body)) ==
          some [1, 0, 1, 1, 0, 0, 0, 0, 0, 0, 1, 0, 0, 0, 0, 0, 0, 0, 0, 0, 0, 1, 1, 1, 0]) = true := by decide

/-- R180, R189: the RESET record of a power-on reset. -/
theorem test_read_event :
    after (.readEvent []) asked
      (fun t =>
        t.cp.response == some { status := .ok, body := [0, 1, 0xFF, 0xFF, 0xFF, 0xFF, 1, 0, 0, 0, 0, 0, 0, 0] }) = true := by
  decide

/-- R168, R189: READ_HISTORY of an erased slot gives its class, the presence byte of the fields that it lacks, the store state, the
pointer and the next sequence. -/
theorem test_read_history :
    after (.readHistory [63]) asking (fun t => (t.cp.response.map (·.body)) == some [1, 0, 2, 0, 0, 0, 0, 1]) = true := by decide

/-- R23: a runt is counted and reported. -/
theorem test_runt :
    after (.ppsPulse 29994999) station (fun t => t.cp.queue.getLast?.map (·.event) == some (.runtPulse 1)) = true := by decide

/-- R25: a second in-window pulse of a window is a runt; the first is not. -/
theorem test_flywheel_pulse :
    after (.ppsPulse 30005000) (pulsed .flywheel) (fun t => t.tb.relockRun == 1 && t.tb.windowHit && t.tb.runtCount == 0) = true
    := by decide

/-- R29: REFCLK loss discards the window and keeps T. -/
theorem test_refclk_lost :
    after .refclkLost station
      (fun t => t.tb.pulseState == .untimed && t.tb.nominal == none && t.tb.t == 1420156825 && t.mail.timeBase == 1) = true := by
  decide

/-- R31: the pulse that restores the phase leaves every run 0, the 1,000 cycles counted among them. -/
theorem test_restoring_pulse_clears_runs :
    let b := ({ lockedTime with pulseState := .untimed, clock := .restored, cycleRun := 1000 } : TimeBase).lock 30000000 500
    (b.missedRun, b.relockRun, b.rephaseRun, b.cycleRun) = (0, 0, 0, 0) := by decide

/-- R124: the insertion of the end of 2016, at its epoch: D 37, the marker set, no step. -/
theorem test_insertion_applied :
    after .handOver (handed (due .noLoad 1420156826 insertion 1420156826))
      (fun t => t.ss.d == some 37 && t.ss.marker && !t.ss.utcStep && t.hs.state == .programming) = true := by decide

/-- R126: a deletion while D is 10 is void and posts nothing. -/
theorem test_void_deletion :
    after .handOver
      { handed (due .noLoad 100 { insertion with kind := .leapDelete, day := 31 } 100) with
        ss := { ScaleState.reset with d := some 10, status := .confirmed } }
      (fun t => t.ss.d == some 10 && t.ss.applied.map (·.void) == [true] && t.hs.state == .idle) = true := by decide

/-- R148: a smear over two hours; one second in, 138,889 ns have elapsed. -/
theorem test_smear_reading :
    ({ key := insertion, baseD := 36, x := 1420156827, t0 := 1420149627, width := 7200 } : Smear).reading 1420149628 =
      (1420149601, 999861111) := by decide

/-- R66: a damaged frame is counted and reported. -/
theorem test_damaged_frame :
    after (.frameReceived [0xA5, 0xC3] 0) station
      (fun t => t.sbi.busError && t.cp.queue.getLast?.map (·.event) == some (.busError 1)) = true := by decide

/-- R185, R186: the header and the first payload bytes of a frame of a CONFIRMED, LOCKED station with no candidates. -/
theorem test_frame_layout :
    ({ cause := .joining, sender := 3, version := 258, t := 1420156825, status := .confirmed, pulseState := .locked, d := 36
       entries := [] } : ViewFrame).covered = [0xA3, 3, 2, 1, 2, 0x54, 0xA5, 0xDF, 0x99, 0x0A, 36] := by decide

/-- R57: 0x02 on the pair, least significant bit first: a 0 as dominant and then recessive, then a 1 the other way round. -/
theorem test_line_code :
    (onPair [0x02]).take 4 = [.dominant, .recessive, .recessive, .dominant] ∧ (onPair [0x02]).length = 16 := by decide

/-- R58: dominant prevails over recessive, and a station alone reads back what it drives. -/
theorem test_dominant_prevails :
    readBack [.recessive, .dominant, .recessive] [.dominant, .recessive] = [.dominant, .dominant, .recessive] := by decide

/-- R183, Table 11-4: the request of LOAD_TIME; an incomplete one; one with another select code; an unknown code. -/
theorem test_requests :
    readRequest [0x5C, 0x02, 4, 0xF0, 0xC3, 0xEF, 0xFF] = some (.loadTime [0xF0, 0xC3, 0xEF, 0xFF])
      ∧ readRequest [0x5C, 0x02, 4, 0xF0, 0xC3, 0xEF] = none ∧ readRequest [0x5D, 0x05, 0] = none
      ∧ readRequest [0x5C, 0x0E, 0] = some (.unknownCommand 0x0E []) ∧ readRequest [0x5C, 0x0B, 0] = some (.readEvent []) := by
  decide

/-- R170, R183: the bits of READ_EVENT as they are clocked in, and the turnaround byte and the status
LATE as they are clocked out. -/
theorem test_port_bits :
    readRequestBits ([false, true, false, true, true, true, false, false] ++ [false, false, false, false, true, false, true, true]
        ++ List.replicate 8 false) = some (.readEvent [])
      ∧ (List.range 16).map (asked.answered 4 [] .late [1]).hdoBit =
        List.replicate 8 true ++ [false, false, false, false, false, true, false, false] := by decide

/-- R62: the end of the station's own frame, after it has completed, is not received, in either order of its two commands. -/
theorem test_own_frame_end :
    let own : State := { station with sbi := { station.sbi with pair := .own } }
    let kept (t : State) : Bool := t.sbi.pair == .quiet && t.sbi.discards == 0 && !t.sbi.busError
    after (.frameReceived [0xA5, 0xC3] 0) own kept = true
      ∧ after .busQuietInstant own (fun t => after (.frameReceived [0xA5, 0xC3] 0) t kept) = true := by decide

/-- R75: a frame that began while a reset held is not received after it, though its quiet instant has come. -/
theorem test_frame_begun_in_reset :
    after .frameStartHeard (State.reset.resetBegun .pin true) (fun a =>
      after .resetEnd a (fun b =>
        after .busQuietInstant b (fun c =>
          c.sbi.ended == .unreceived && after (.frameReceived [0xA5, 0xC3] 0) c (fun t => !t.sbi.busError)))) = true := by
  decide

/-- R55: when item 1 goes, item 2 stays in its position. -/
theorem test_items_stay_in_place :
    after .candidateNotice
      { station with
        si :=
          { SourceIntake.reset with
            operator :=
              [{ position := 1, key := insertion, decision := .affirm },
                { position := 2, key := { insertion with day := 16618 }, decision := .deny }] }
        mail := { Mail.reset with candidate := [{ leapMoved := false, applied := [insertion] }] } }
      (fun t =>
        t.si.operator.map (·.position) == [2] && (operatorBytes t.si.operator).take 2 == [0, 1]) = true := by decide

/-- R179: HINT_N is low while a record waits and high while a reset holds. -/
theorem test_hint : State.reset.hintN = false ∧ (State.reset.resetBegun .pin true).hintN = true := by decide

/-- R156, R169: a program cut short before the marker leaves it erased; one cut short in the marker has every other byte in place. -/
theorem test_program_cut_short :
    let meant : List Byte := List.replicate 19 0x12 ++ [0x3C]
    tornSlot (List.replicate 20 0xFF) meant (fun i => if i < 20 then 0x80 else 0) = List.replicate 19 0x92 ++ [0xFF]
      ∧ tornSlot (List.replicate 20 0xFF) meant (fun _ => 0x80) = List.replicate 19 0x12 ++ [0xBC] := by decide

/-- R169: a voiding cut short before its marker falls, of cells that read erased, does not leave the slot EMPTY. -/
theorem test_voiding_cut_short :
    slotClass (partVoided (List.replicate 20 0xFF) (fun _ => 0xFF)) = .torn := by decide

/-- R159: the scan of an erased array starts the store at slot 0 with sequence 1. -/
theorem test_scan_erased :
    after .scanEnd State.reset
      (fun t => t.hs.state == .idle && t.hs.pointer == 0 && t.hs.nextSequence == some 1 && t.ss.status == .unknown) = true := by
  decide

/-! ## Witnesses: states and operands that meet the hypotheses of the obligations -/

theorem witness_StepRunsTheFrontCommand :
    ({ station with pending := [.handOver] } : State).pending = [.handOver] ∧ station.pending = [] := by decide

theorem asked_accepts : asked.accepting := ⟨rfl, rfl⟩

theorem asking_accepts : asking.accepting := ⟨rfl, rfl⟩

/-- The station once RESET has been taken. -/
def resetting : State := { asking with cp := { asking.cp with phase := .response, resetPending := true } }

theorem witness_TransactionsBeginAndEnd :
    (station.held = false ∧ station.cp.resetPending = false) ∧ asking.accepting
      ∧ (resetting.held = false ∧ resetting.cp.resetPending = true)
      ∧ (Instr.wf (.unknownCommand 0x0E [1]) = true ∧ Instr.request (.unknownCommand 0x0E [1]) = some (14, [1], false))
      ∧ (asking.answered 5 [] .ok [7]).cp.response = some { status := .ok, body := [7] } :=
  ⟨by decide, asking_accepts, by decide, ⟨rfl, rfl⟩, rfl⟩

/-- The station while a reset holds. -/
def heldStation : State := station.resetBegun .pin true

theorem witness_CommandsDisregarded :
    (Instr.request (.readStatus []) = some (5, [], true) ∧ ¬station.accepting)
      ∧ heldStation.held = true ∧ ¬Instr.actsInReset .handOver :=
  ⟨⟨rfl, fun h => absurd h.2 (by decide)⟩, rfl, fun h => h⟩

theorem witness_MalformedRequestsChangeNothing :
    (Instr.request (.unknownCommand 0x0E []) = some (14, [], false) ∧ asked.accepting)
      ∧ Instr.request (.loadTime [1, 2, 3]) = some (2, [1, 2, 3], false) ∧ asking.accepting :=
  ⟨⟨rfl, asked_accepts⟩, rfl, asking_accepts⟩

theorem witness_ResetsBegin :
    station.powered = true ∧ ({ station with powered := false } : State).powered = false := by decide

theorem witness_ResetsEndAlike :
    (heldStation.held = true ∧ heldStation.powered = true) ∧ station.held = false
      ∧ ({ heldStation with powered := false } : State).powered = false := ⟨⟨rfl, rfl⟩, rfl, rfl⟩

/-- A record of the insertion of the end of 2016. -/
def record : HistoryRecord :=
  { kind := .leapInsert, target := .utc, epochT := 1420156826, value := 0, dAfter := 37, zones := [60, 0, -720, 840] }

theorem record_sound : record.sound := ⟨by decide, ⟨by decide, by decide⟩, by decide, by decide⟩

/-- The station while its store does an operation at a slot. -/
def working (operation : StoreOperation) (pointer : Nat) : State :=
  { station with
    hs := { HistoryStore.reset [] with state := .programming, pointer := pointer, operation := operation, queue := [record] } }

/-- The station while its store erases page 1, which holds a record. -/
def erasing : State :=
  { working .erase 16 with hs := { (working .erase 16).hs with array := Memory.writeBytes [] 320 (record.slotBytes 1) } }

set_option maxRecDepth 20000 in
theorem witness_AnInterruptedProgramIsTorn :
    ((working (.program (record.slotBytes 1) 1) 63).powered = true
        ∧ (working (.program (record.slotBytes 1) 1) 63).hs.array.wf = true
        ∧ (working (.program (record.slotBytes 1) 1) 63).hs.pointer < 64
        ∧ (working (.program (record.slotBytes 1) 1) 63).hs.classOf 63 = .empty ∧ record.sound
        ∧ (working (.program (record.slotBytes 1) 1) 63).hs.operation = .program (record.slotBytes 1) 1)
      ∧ ((working (.voiding (record.slotBytes 1) 1) 0).hs.operation = .voiding (record.slotBytes 1) 1
        ∧ (record.slotBytes 1).length = 20)
      ∧ (erasing.hs.operation = .erase ∧ erasing.hs.array.wf = true ∧ 16 / 16 = erasing.hs.pointer / 16
        ∧ erasing.hs.classOf 16 ≠ .empty)
      ∧ (resetting.held = false ∧ resetting.cp.resetPending = true ∧ resetting.hs.operation = .noOperation) :=
  ⟨⟨rfl, rfl, by decide, by decide, record_sound, rfl⟩, by decide, by decide, by decide⟩

/-- The station with a load that waits. -/
def loaded : State := { station with tb := { lockedTime with pendingLoad := some 4039372799 } }

theorem witness_LoadTimeWaitsForTheNextEdge :
    (asking.accepting ∧ [(0xF0 : Byte), 0xC3, 0xEF, 0xFF].length = 4)
      ∧ (∀ p, Instr.windowClose ≠ .loadTime p) ∧ loaded.held = false ∧ (∃ t, exec .windowClose loaded = .next t)
      ∧ loaded.tb.pendingLoad = some 4039372799 :=
  ⟨⟨asking_accepts, rfl⟩, (by simp), rfl, ⟨_, rfl⟩, rfl⟩

theorem witness_LawOfTheCount :
    ({ station with pending := [.windowClose] } : State).pending = [.windowClose]
      ∧ (∃ t, step { station with pending := [.windowClose] } = .next t) ∧ Instr.windowClose ≠ .resetEnd :=
  ⟨rfl, ⟨_, rfl⟩, by decide⟩

/-- No load; a load of another T while the time is SET, and the T that is due; a load while it is UNSET. -/
theorem witness_AnEdgeAgesSourcesAndPeers :
    station.params = some params ∧ station.tb.pendingLoad = none
      ∧ (loaded.params = some params ∧ loaded.tb.pendingLoad = some 4039372799 ∧ loaded.tb.timeState = .set
        ∧ 4039372799 ≠ loaded.tb.t + 1)
      ∧ { loaded.tb with t := 4039372798 }.t + 1 = 4039372799
      ∧ ({ TimeBase.reset with pendingLoad := some 0 } : TimeBase).timeState = .unset := by decide

theorem witness_TheFirstPulseLocks :
    (State.reset.held = false ∧ State.reset.tb.pulseState = .seeking ∧ State.reset.tb.clock = .present)
      ∧ (∀ stamp, Instr.refclkLost ≠ .ppsPulse stamp) ∧ ∃ t, exec .refclkLost State.reset = .next t :=
  ⟨by decide, (by simp), ⟨_, rfl⟩⟩

/-- Both ends of the window, and the ticks beyond them, in LOCKED and in BRIDGING. -/
theorem witness_PulsesInALockedSecond :
    (station.held = false ∧ station.tb.pulseState = .locked ∧ (pulsed .bridging).tb.pulseState = .bridging
        ∧ station.tb.nominal = some 20000000 ∧ (pulsed .bridging).tb.nominal = some 20000000)
      ∧ (20000000 + 10000000 ≤ 29995000 + 10 * station.tb.tolerance
        ∧ 30005000 ≤ 20000000 + 10000000 + 10 * station.tb.tolerance)
      ∧ 29994999 + 10 * station.tb.tolerance < 20000000 + 10000000
      ∧ 20000000 + 10000000 + 10 * station.tb.tolerance < 30005001 := by decide

theorem witness_WindowClosesBridge :
    (station.held = false ∧ station.tb.pulseState = .locked ∧ station.tb.nominal = some 20000000 ∧ station.tb.missedRun < 2)
      ∧ ({ pulsed .bridging with tb := { (pulsed .bridging).tb with missedRun := 2 } } : State).tb.pulseState = .bridging
      ∧ 2 ≤ ({ pulsed .bridging with tb := { (pulsed .bridging).tb with missedRun := 2 } } : State).tb.missedRun := by decide

/-- The station in FLYWHEEL with these runs, the edge of the awaited window issued or not. -/
def flying (hit : Bool) (relock rephase lastEdge : Nat) (stray : Option Nat) : State :=
  { station with
    tb :=
      { lockedTime with
        pulseState := .flywheel, windowHit := hit, relockRun := relock, rephaseRun := rephase, lastEdge := some lastEdge
        lastStray := stray } }

theorem witness_FlywheelSeconds :
    ((flying false 0 0 29999999 none).held = false ∧ (flying false 0 0 29999999 none).tb.pulseState = .flywheel
        ∧ (flying false 0 0 29999999 none).tb.nominal = some 20000000
        ∧ ∀ e ∈ (flying false 0 0 29999999 none).tb.lastEdge, e < 20000000 + 10000000)
      ∧ (flying false 0 0 30000000 none).tb.lastEdge = some 30000000 ∧ 20000000 + 10000000 ≤ 30000000 := by decide

/-- Both ends of the window and the ticks beyond them; the runs at either side of 3 and of 8. -/
theorem witness_FlywheelPulses :
    ((flying true 1 0 20000000 none).tb.windowHit = true ∧ (flying false 1 0 20000000 none).tb.relockRun < 2
        ∧ (flying false 1 0 20000000 none).tb.windowHit = false ∧ 2 ≤ (flying false 2 0 30000000 none).tb.relockRun)
      ∧ (20000000 + 10000000 ≤ 29995000 + 10 * lockedTime.tolerance
        ∧ 30005000 ≤ 20000000 + 10000000 + 10 * lockedTime.tolerance)
      ∧ (29994999 + 10 * lockedTime.tolerance < 20000000 + 10000000
        ∧ 20000000 + 10000000 + 10 * lockedTime.tolerance < 30005001)
      ∧ ((flying false 0 6 20000000 (some 15000000)).tb.rephaseRun + 1 < 8
        ∧ 8 ≤ (flying false 0 7 20000000 (some 15000000)).tb.rephaseRun + 1
        ∧ 15000000 + 10000000 ≤ 25000000 + 10 * lockedTime.tolerance
        ∧ 25000000 ≤ 15000000 + 10000000 + 10 * lockedTime.tolerance) := by decide

theorem witness_UntimedUntilRefclkReturns :
    ((pulsed .untimed).held = false ∧ (pulsed .untimed).tb.pulseState = .untimed
        ∧ (pulsed .untimed).tb.lastEdge = some 20000000 ∧ 24999999 < 20000000 + (pulsed .untimed).tb.holdOff
        ∧ 20000000 + (pulsed .untimed).tb.holdOff ≤ 25000000 ∧ (pulsed .untimed).tb.clock ≠ .restored)
      ∧ ({ lockedTime with pulseState := .untimed, clock := .restored } : TimeBase).clock = .restored
      ∧ (({ lockedTime with clock := .lost } : TimeBase).clock = .lost
        ∧ ({ lockedTime with clock := .lost } : TimeBase).cycleRun + 999 < 1000
        ∧ 1000 ≤ ({ lockedTime with clock := .lost } : TimeBase).cycleRun + 1000)
      ∧ station.tb.clock ≠ .lost := by decide

theorem witness_RefclkLoss :
    (station.held = false ∧ station.tb.clock = .present) ∧ State.reset.tb.clock = .present
      ∧ ({ lockedTime with clock := .restored } : TimeBase).clock = .restored
      ∧ ({ TimeBase.reset with clock := .lost, pulseState := .untimed } : TimeBase).lastEdge = none
      ∧ ({ TimeBase.reset with clock := .lost, pulseState := .untimed } : TimeBase).pulseState = .untimed
      ∧ ({ TimeBase.reset with clock := .lost, pulseState := .untimed } : TimeBase).clock = .lost := by decide

/-! ### The laws of the device hold of the small station -/

/-- The station with a command that waits. -/
def busyStation (c : Instr) : State := { station with pending := [c] }

theorem station_laws (c : Instr) :
    (busyStation c).queueLaw ∧ (busyStation c).transmitLaw ∧ (busyStation c).peerLaw ∧ (busyStation c).tableLaw
      ∧ (busyStation c).scaleLaw ∧ (busyStation c).edgesLaw ∧ (busyStation c).storeLaw ∧ (busyStation c).stampLaw := by
  simp only [State.queueLaw, State.transmitLaw, State.commissionLaw, State.peerLaw, State.tableLaw, CandidateTable.keysLaw,
    CandidateTable.rivalsLaw, State.scaleLaw, ScaleState.offsetLaw, ScaleState.zonesLaw, State.sourcesOfD, State.edgesLaw,
    State.toleranceLaw, State.storeLaw, State.stampLaw, LaneStamps.lanesLaw]
  simp [busyStation, station, params, lockedTime, State.reset, ControlPort.reset, ScaleBus.reset, PeerTable.reset,
    CandidateTable.reset, ScaleState.reset, SourceIntake.reset, SourceRecord.reset, TimeBase.reset, HistoryStore.reset,
    LaneStamps.reset, Mail.reset, Config.dormantTolerance, isOffset]
  decide

theorem witness_EdgesLieHalfASecondApart :
    (busyStation (.ppsPulse 30000000)).edgesLaw ∧ (∃ t, step (busyStation (.ppsPulse 30000000)) = .next t)
      ∧ ∀ stamp rest, (busyStation (.ppsPulse 30000000)).pending = .ppsPulse stamp :: rest →
        ∀ e ∈ (busyStation (.ppsPulse 30000000)).tb.lastEdge, e ≤ stamp := by
  refine ⟨(station_laws _).2.2.2.2.2.1, ⟨_, rfl⟩, ?_⟩
  intro stamp rest h e he
  simp only [busyStation, List.cons.injEq, Instr.ppsPulse.injEq] at h
  have : some 20000000 = some e := he
  cases this
  omega

theorem witness_QueueLawKept : (busyStation .refclkLost).queueLaw ∧ ∃ t, step (busyStation .refclkLost) = .next t :=
  ⟨(station_laws _).1, ⟨_, rfl⟩⟩

theorem witness_BusLawsKept :
    (busyStation .viewNotice).transmitLaw ∧ (busyStation .viewNotice).peerLaw
      ∧ ∃ t, step (busyStation .viewNotice) = .next t :=
  ⟨(station_laws _).2.1, (station_laws _).2.2.1, ⟨_, rfl⟩⟩

theorem witness_TableLawKept : (busyStation .windowClose).tableLaw ∧ ∃ t, step (busyStation .windowClose) = .next t :=
  ⟨(station_laws _).2.2.2.1, ⟨_, rfl⟩⟩

theorem witness_ScaleLawKept :
    ((busyStation .handOver).scaleLaw ∧ ∃ t, step (busyStation .handOver) = .next t)
      ∧ ∃ t, exec .windowClose station = .next t :=
  ⟨⟨(station_laws _).2.2.2.2.1, ⟨_, rfl⟩⟩, ⟨_, rfl⟩⟩

/-- A stamp is formed at `test_stamp_kinds`, and the hand-over of the insertion gives a notice with the marker. -/
theorem witness_StampLawKept :
    ((busyStation .secondNotice).stampLaw ∧ ∃ t, step (busyStation .secondNotice) = .next t)
      ∧ after .handOver (handed (due .noLoad 1420156826 insertion 1420156826)) (fun t => t.mail.second.map (·.marker) == [true]) =
        true :=
  ⟨⟨(station_laws _).2.2.2.2.2.2.2, ⟨_, rfl⟩⟩, by decide⟩

theorem witness_StoreLawKept :
    (busyStation (.programComplete (List.replicate 20 0))).storeLaw
      ∧ ∃ t, exec (.programComplete (record.slotBytes 1)) (working (.program (record.slotBytes 1) 1) 63) = .next t :=
  ⟨(station_laws _).2.2.2.2.2.2.1, ⟨_, rfl⟩⟩

/-! ### Commissioning and replies -/

/-- A commission record that passes: address 3, no lanes. -/
def commissionRecord : List Byte :=
  [3, 2, 48, 0, 0, 0x0E, 0x10, 9, 2, 30, 60, 3, 0, 60, 1, 0xF4, 0] ++ List.replicate 56 0 ++ [4, 0, 0xD0, 56]

/-- The part after reset with its scan ended and a transaction that waits for a command. -/
def ready : State := { asked with hs := { HistoryStore.reset [] with state := .idle } }

set_option maxRecDepth 8000 in
theorem witness_CommissionIsOneStep :
    (asking.accepting ∧ commissionRecord.length = 77 ∧ asking.sbi.participation ≠ .dormant)
      ∧ (asked.accepting ∧ asked.sbi.participation = .dormant ∧ asked.hs.state = .scanning)
      ∧ (ready.accepting ∧ ready.sbi.participation = .dormant ∧ ready.hs.state ≠ .scanning)
      ∧ (readCommission (32 :: commissionRecord.drop 1)).failure = some 1 ∧ (readCommission commissionRecord).failure = none :=
  ⟨⟨asking_accepts, by decide⟩, ⟨asked_accepts, by decide⟩, ⟨⟨rfl, rfl⟩, by decide⟩, by decide⟩

theorem witness_ReadsGiveWhatStands : asked.accepting ∧ asking.accepting := ⟨asked_accepts, asking_accepts⟩

/-- The asking station with two TAI lanes, the stream sending. -/
def sending : State :=
  { asking with
    ls :=
      { LaneStamps.reset with
        laneCount := 2, profiles := List.replicate 2 { kind := .tai, zone := none, lead := 0, window := none }
        stream := .sending } }

theorem witness_ReadStampAndHistory :
    (sending.accepting ∧ (1#8).toNat < sending.ls.laneCount ∧ sending.ls.stream = .sending
        ∧ asking.ls.stream = .idle ∧ sending.ls.laneCount ≤ (2#8).toNat)
      ∧ (asked.accepting ∧ asked.hs.state = .scanning)
      ∧ (ready.accepting ∧ ready.hs.state ≠ .scanning ∧ 63 < (64#8).toNat ∧ (63#8).toNat ≤ 63) :=
  ⟨⟨⟨rfl, rfl⟩, by decide⟩, ⟨asked_accepts, by decide⟩, ⟨⟨rfl, rfl⟩, by decide⟩⟩

theorem witness_AnEventLeavesTheQueueOnce :
    (({ asked with cp := { asked.cp with queue := [] } } : State).accepting
        ∧ ({ asked with cp := { asked.cp with queue := [] } } : State).cp.queue = [])
      ∧ (asked.accepting ∧ asked.cp.queue = { event := .reset .power, t := none } :: [] ∧ asked.cp.queue.length ≤ 32
        ∧ asked.cp.resetPending = false ∧ asked.cp.overflow ≤ 255)
      ∧ heldStation.held = true ∧ heldStation.powered = true ∧ ∃ t, exec .resetEnd heldStation = .next t :=
  ⟨⟨⟨rfl, rfl⟩, rfl⟩, ⟨asked_accepts, rfl, by decide⟩, rfl, rfl, ⟨_, rfl⟩⟩

/-! ### Sources and the operator entry -/

/-- A source that has said the same thing twice. -/
def settling : SourceRecord :=
  { SourceRecord.reset with
    status := .settling, last := some { d := 36, leap := .insert, day := some 16437, change := none }, repeats := 2 }

/-- The asking station with that source as source 1. -/
def observed : State := { asking with si := { SourceIntake.reset with sources := [SourceRecord.reset, settling] } }

/-- An OBSERVE of the same thing. -/
def observation : List Byte := [1, 36, 1, 0x40, 0x35, 0xFF, 0, 0, 0, 0, 0, 0]

theorem witness_ObserveCountsObservations :
    (asked.accepting ∧ observation.length = 12 ∧ asked.params = none)
      ∧ (observed.accepting ∧ observed.params = some params ∧ observed.params.isSome = true)
      ∧ (readObserve (4 :: observation.drop 1)).failure = some 1 ∧ (readObserve observation).failure = none
      ∧ observed.si.sources[(readObserve observation).source]? = some settling :=
  ⟨⟨asked_accepts, by decide⟩, ⟨⟨rfl, rfl⟩, by decide⟩, by decide⟩

/-- SET_OPERATOR_ENTRY with one item: the insertion, AFFIRM, for the version 0. -/
def entry (decision : Byte) : List Byte := [1, 0, 0, 0x10, 0, 0, 0x40, 0x35, 0, 0, decision]

/-- The asking station at an earlier T. -/
def earlier : State := { asking with tb := { lockedTime with t := 1420000000 } }

set_option maxRecDepth 8000 in
theorem witness_SetOperatorEntryReplacesWhole :
    (operatorForm (entry 1) = true ∧ operatorForm (3 :: List.replicate 26 0) = true ∧ 2 < byteAt (3 :: List.replicate 26 0) 0
        ∧ byteAt (entry 1) 0 ≤ 2 ∧ asked.params = none ∧ earlier.params.isSome = true)
      ∧ earlier.checkItems 1 [] (readOperatorItems (entry 3)) = .error (.range, 1)
      ∧ asking.checkItems 1 [] (readOperatorItems (entry 1)) = .error (.late, 1)
      ∧ earlier.checkItems 1 [] (readOperatorItems (entry 1)) = .ok [{ position := 1, key := insertion, decision := .affirm }]
      ∧ fieldAt (entry 1) 1 2 = earlier.ct.version ∧ fieldAt [0, 0, 1] 1 2 ≠ earlier.ct.version ∧ earlier.accepting :=
  ⟨by decide, rfl, rfl, rfl, by decide, by decide, ⟨rfl, rfl⟩⟩

/-- The station with a FRESH source of this age as source 0 and an applied change with this grace. -/
def aged (age grace : Nat) : State :=
  { station with
    si :=
      { SourceIntake.reset with
        sources :=
          [{ SourceRecord.reset with
              status := .fresh, age := age, repeats := 3
              settled := some { d := 36, leap := .noLeap, day := none, change := none } }]
        applied := some { kind := .leapInsert, dBefore := 35, grace := grace } } }

theorem witness_SourcesGoStaleAndGracesEnd :
    ((aged 61 0).held = false ∧ (aged 61 0).params = some params
        ∧ (aged 61 0).si.sources.map (fun r => (r.status, r.age)) = [(.fresh, 61)] ∧ params.sourceTimeout < 61)
      ∧ ¬params.sourceTimeout < 60
      ∧ (aged 60 0).si.applied.map (·.grace) = some 0 ∧ (aged 60 1).si.applied.map (·.grace) = some 1 := by decide

/-- A notice of the scale that the station holds. -/
def scaleNotice : ScaleNotice := { d := some 36, status := .confirmed, ofEdge := true }

/-- A report with an invalid day for its leap, one whose flag has no day, and one with a shift. -/
def reports : List Observation :=
  [{ d := 36, leap := .insert, day := some 16438, change := none }, { d := 36, leap := .delete, day := none, change := none },
    { d := 36, leap := .noLeap, day := none, change := some { zone := 3, offset := 840, minute := 67322879 } }]

/-- The keys of those reports, derived before the insertion's epoch, with the grace of an applied insertion. -/
theorem test_derived_keys :
    reports.map (fun o => ((aged 0 5).deriveSource 1 { SourceRecord.reset with settled := some o }).1.keys) =
        [[], [{ kind := .leapDelete, target := .utc, day := 16437, value := none }],
          [{ kind := .localShift, target := .zone 3, day := 67322879, value := some 840 }]]
      ∧ ((aged 0 5).deriveSource 1
          { SourceRecord.reset with settled := some { d := 36, leap := .insert, day := none, change := none } }).1.keys = []
      ∧ ((aged 0 5).deriveSource 1
          { SourceRecord.reset with settled := some { d := 36, leap := .insert, day := some 16438, change := none } }).2 =
        [.sourceReportInvalid 1 { insertion with day := 16438 }] := by decide

theorem witness_SourceIntakeTakesNotices :
    (station.ss.d = some 36 ∧ station.ss.status = .confirmed ∧ State.reset.ss.status ≠ .confirmed
        ∧ (aged 60 5).si.applied.map (·.dBefore) = some 35)
      ∧ station.held = false ∧ station.params = some params
      ∧ ({ Mail.reset with appliedChange := [(.leapInsert, 36)] } : Mail).appliedChange = [(.leapInsert, 36)]
      ∧ ({ Mail.reset with sourceScale := [scaleNotice] } : Mail).sourceScale = scaleNotice :: [] ∧ station.scaled = true
      ∧ (State.reset.tb.timeState = .unset ∧ station.tb.timeState = .set ∧ (aged 60 5).si.sources.all (·.settled.isSome) = true)
      ∧ (({ Mail.reset with candidate := [{ leapMoved := true, applied := [insertion] }] } : Mail).candidate =
          [{ leapMoved := true, applied := [insertion] }]
        ∧ ({ leapMoved := false, applied := [] } : CandidateNotice).leapMoved = false) := by decide

/-- R40, R45: a source that goes STALE leaves the values of Scale State's tally, with one source notice and one report notice. -/
theorem test_stale_source_notices :
    after (.sourceStale 0) (aged 61 0) (fun t => t.mail.source == 1 && t.mail.report == 1 && t.mail.operator == 0) = true := by
  decide

/-! ### Peers and the bus -/

/-- The station with a LIVE peer past the timeout and a SILENT one to be purged. -/
def silencing : State :=
  { station with
    pt :=
      { PeerTable.reset with
        entries := [{ PeerEntry.fresh 5 with age := 31 }, { PeerEntry.fresh 31 with state := .silent, age := 271 }] } }

/-- R85, R86, R87: PEER_SILENT with its event and a notice of the address, the purge with a notice and no event. -/
theorem test_peer_silent_and_purge :
    after (.peerSilent 5) silencing
        (fun t => t.mail.peer == [[5]] && t.cp.queue.getLast?.map (·.event) == some (.peerSilent 5 31)) = true
      ∧ after (.peerPurge 31) silencing
        (fun t => t.mail.peer == [[31]] && t.pt.entries.map (·.address) == [5] && t.cp == silencing.cp) = true := by decide

theorem witness_PeersGoSilentAndArePurged :
    silencing.held = false ∧ silencing.params = some params
      ∧ ({ Mail.reset with peerTableScale := [scaleNotice] } : Mail).peerTableScale = scaleNotice :: [] := by
  decide

/-- A frame of a station, with one candidate. -/
def viewFrame (sender : Nat) : ViewFrame :=
  { cause := .joining, sender := sender, version := 65535, t := 1420156825, status := .confirmed, pulseState := .locked, d := 36
    entries := [{ key := insertion, state := .accepted, stance := .witness }] }

/-- The frame as it is received. -/
def heard (sender : Nat) : ReceivedFrame :=
  { cause := .joining, sender := sender, version := 65535, t := 1420156825, confirmed := true, pulseCode := 2, d := 36
    entries := [[0x10, 0, 0, 0x40, 0x35, 0, 2, 1]] }

/-- The station with an entry of station 31, of the version that its frame bears. -/
def acquainted : State :=
  { station with
    pt :=
      { PeerTable.reset with
        entries := [{ PeerEntry.fresh 31 with view := (heard 31).view.map (·.1), timeSplit := true }] } }

set_option maxRecDepth 20000 in
theorem witness_FramesFromStations :
    (station.held = false ∧ station.sbi.buffer = none ∧ station.sbi.pair = .quiet ∧ station.sbi.ended ≠ .unreceived
        ∧ station.params = some params)
      ∧ (receiveFrame (viewFrame 31).bytes 0 = some (heard 31) ∧ (heard 31).sender ≠ params.address)
      ∧ (station.pt.find 31 = none ∧ (acquainted.pt.find 31).isSome = true ∧ station.pt.entryInvalid = false
        ∧ ((heard 31).view.map (fun v => v.2)) = some [] ∧ ({ heard 31 with pulseCode := 6 } : ReceivedFrame).view = none
        ∧ (({ heard 31 with entries := [[0x50, 0, 0, 0, 1, 0, 1, 1]] } : ReceivedFrame).view.map (fun v => v.2)) =
          some [(1, [0x50, 0, 0, 0, 1, 0, 1, 1])])
      ∧ (receiveFrame (viewFrame 3).bytes 0 = some (heard 3) ∧ (heard 3).sender = params.address)
      ∧ station.sbi.participation = .active
      ∧ ({ ScaleBus.reset with participation := .muted } : ScaleBus).participation = .muted
      ∧ (State.reset.params = none ∧ State.reset.sbi.participation = .dormant ∧ State.reset.sbi.pair = .quiet)
      ∧ heldStation.held = true ∧ heldStation.sbi.buffer = none
      ∧ ({ ScaleBus.reset with ended := .unreceived } : ScaleBus).ended = .unreceived := by decide

theorem witness_DamagedFramesAreCounted :
    (station.held = false ∧ station.sbi.buffer = none ∧ station.sbi.pair = .quiet ∧ station.sbi.ended ≠ .unreceived
        ∧ receiveFrame [] 7 = none)
      ∧ station.sbi.busError = false ∧ ({ ScaleBus.reset with busError := true } : ScaleBus).busError = true := by decide

theorem witness_ViewFrameRoundTrip : (viewFrame 31).sound :=
  ⟨by decide, by decide, by decide, by decide, fun _ => ⟨by decide, by decide⟩, by decide, by decide,
    fun e he => by
      simp only [viewFrame, List.mem_singleton] at he
      subst he
      exact ⟨by decide, trivial⟩⟩

/-- The station with a pending request. -/
def requesting (cause : Cause) (sent : Bool) : State :=
  { station with sbi := { station.sbi with request := some cause, changedSent := sent } }

theorem witness_TransmissionBegins :
    ((requesting .changed false).held = false ∧ (requesting .changed false).params = some params
        ∧ (requesting .changed false).sbi.request = some .changed ∧ (requesting .changed false).sbi.participation = .active
        ∧ (requesting .changed false).sbi.changedSent = false ∧ (requesting .changed false).sbi.courtesyHold = false
        ∧ (requesting .changed false).sbi.pair = .quiet ∧ (requesting .changed false).sbi.buffer = none
        ∧ 4 * params.address ≤ 12)
      ∧ ¬4 * params.address ≤ 11 ∧ (requesting .changed true).sbi.changedSent ≠ false := by decide

/-- The station driving its frame, with this collision run. -/
def driving (run : Nat) : State :=
  { station with sbi := { station.sbi with buffer := some (viewFrame 3), pair := .own, collisionRun := run } }

set_option maxRecDepth 20000 in
theorem witness_TransmissionEnds :
    ((driving 6).held = false ∧ (driving 6).sbi.buffer = some (viewFrame 3) ∧ (driving 6).sbi.collisionRun < 7)
      ∧ ¬(driving 7).sbi.collisionRun < 7
      ∧ ((viewFrame 3).readsBack [] = true ∧ (viewFrame 3).readsBack [.recessive, .dominant] = true
        ∧ (viewFrame 3).readsBack [.dominant] = false)
      ∧ station.sbi.buffer = none := by decide

theorem witness_QuietAndCourtesy :
    (station.sbi.buffer = none ∧ station.sbi.pair = .quiet ∧ (driving 0).sbi.buffer.isSome = true)
      ∧ (station.held = false ∧ station.params = some params ∧ station.sbi.courtesyHold = false)
      ∧ ({ ScaleBus.reset with courtesyHold := true } : ScaleBus).courtesyHold = true
      ∧ 4 * params.address + 256 ≤ 268 ∧ 267 < 4 * params.address + 256 := by decide

/-- The station LISTENING, with this listen count. -/
def listening (count : Nat) : State :=
  { station with sbi := { ScaleBus.reset with participation := .listening, listenCount := count } }

theorem witness_ListenSpanAndCadence :
    ((listening 20).held = false ∧ (listening 20).params = some params ∧ (listening 20).sbi.participation = .listening
        ∧ 2 * (params.p + 1) ≤ (listening 20).sbi.listenCount ∧ (listening 20).tb.timeState = .set)
      ∧ (listening 19).sbi.listenCount < 2 * (params.p + 1)
      ∧ station.sbi.participation = .active
      ∧ (params.p + 1 ≤ ({ ScaleBus.reset with cadence := 10 } : ScaleBus).cadence
        ∧ ({ ScaleBus.reset with cadence := 9 } : ScaleBus).cadence < params.p + 1)
      ∧ (2 * (params.p + 1) ≤ min (2 * (params.p + 1)) ((listening 19).sbi.listenCount + 1)
        ∧ min (2 * (params.p + 1)) ((listening 18).sbi.listenCount + 1) < 2 * (params.p + 1))
      ∧ (station.sbi.prompt = false ∧ ({ ScaleBus.reset with prompt := true } : ScaleBus).prompt = true
        ∧ State.reset.sbi.participation = .dormant) := by decide

theorem witness_TableNoticesOnTheBus :
    station.held = false ∧ station.sbi.participation = .active ∧ 0 < ({ Mail.reset with view := 1 } : Mail).view
      ∧ 0 < ({ Mail.reset with arming := 1 } : Mail).arming := by decide

/-! ### The Candidate Table -/

theorem witness_TableNoticesTakeAPass :
    station.held = false ∧ 0 < ({ Mail.reset with report := 1 } : Mail).report
      ∧ 0 < ({ Mail.reset with operator := 1 } : Mail).operator ∧ ({ Mail.reset with peer := [[5]] } : Mail).peer = [[5]]
      ∧ ({ Mail.reset with candidateScale := [scaleNotice] } : Mail).candidateScale = scaleNotice :: []
      ∧ 0 < ({ Mail.reset with timeBase := 1 } : Mail).timeBase := by decide

/-- The station whose operator affirms the insertion, at this T and with this quorum. -/
def affirmed (t qmin : Nat) : State :=
  { station with
    tb := { lockedTime with t := t }, params := some { params with qmin := qmin }
    si := { SourceIntake.reset with operator := [{ position := 1, key := insertion, decision := .affirm }] } }

/-- A pass leaves a PROPOSED record, an ACCEPTED one, and, at an edge in the arm window, an ARMED one. -/
theorem witness_RecordsAfterAPass :
    ((affirmed 1420000000 2).pass none).ct.records.map (fun r => (r.state, r.pro)) = [(.proposed, 1)]
      ∧ ((affirmed 1420000000 1).pass none).ct.records.map (fun r => (r.state, r.pro)) = [(.accepted, 1)]
      ∧ ((affirmed 1420153226 1).pass (some .noLoad)).ct.records.map (fun r => (r.state, r.armedBy)) =
        [(.armed, some .late)]
      ∧ (affirmed 0 1).params = some { params with qmin := 1 } ∧ (affirmed 0 1).decisionOn insertion = some .affirm
      ∧ station.decisionOn insertion = none := by decide

/-- The entry of a listing and voting peer that lists these keys as a WITNESS. -/
def lister (address : Nat) (keys : List (Key × CandidateState)) : PeerEntry :=
  { PeerEntry.fresh address with
    view :=
      some
        { version := 0, status := .confirmed, d := 36, timeState := .set, pulseState := .locked
          entries := keys.map (fun k => { key := k.1, state := k.2, stance := .witness }) }
    tDifference := some 0 }

/-- The station with these records and peers, at this T. -/
def tabled (t : Nat) (records : List Candidate) (peers : List PeerEntry) : State :=
  { station with
    tb := { lockedTime with t := t }, pt := { PeerTable.reset with entries := peers }
    ct := { CandidateTable.reset with records := records, epochD := some 36 } }

/-- A record of a key, in this state, with this pro. -/
def candidate (key : Key) (state : CandidateState) (pro : Nat) : Candidate :=
  { key := key, epoch := key.epoch 36, state := state, armedBy := none, stance := .abstain, pro := pro, con := 0
    peerArmed := 0, sources := [], operator := none, peers := [5], firstSeen := 0 }

/-- An OFFSET_SET to 36 on the i-th day after the insertion's. -/
def offset (i : Nat) : Key := { kind := .offsetSet, target := .utc, day := 16437 + i, value := some 36 }

/-- Eight open records, the last the latest. -/
def fullTable : List Candidate := (List.range 8).map (fun i => candidate (offset (i + 1)) .proposed 0)

/-- R96: the newcomer takes the place of the latest PROPOSED record, and one that is later is refused. -/
theorem test_eviction :
    ((tabled 1420000000 fullTable []).considerKey insertion).ct.records.map (fun r => r.key.day) =
        [16437, 16438, 16439, 16440, 16441, 16442, 16443, 16444]
      ∧ (((tabled 1420000000 fullTable []).considerKey (offset 9)).cp.queue.getLast?.map (·.event)) =
        some (.tableFull (offset 9)) := by decide

/-- R106, R107: in the arm window the rival with more pro is armed and the other removed; a tie removes both. -/
theorem test_settlement :
    ((tabled 1420153226 [candidate insertion .accepted 3, candidate (offset 0) .accepted 2] []).stepArm.ct.records.map
          (fun r => (r.key, r.state))) = [(insertion, .armed)]
      ∧ ((tabled 1420153226 [candidate insertion .accepted 2, candidate (offset 0) .accepted 2] []).stepArm.ct.barred.map
          (fun b => (b.key, b.reason))) = [(insertion, .conflicted), (offset 0, .conflicted)] := by decide

/-- R109: two voting peers that show the insertion ARMED bring it in, over an ACCEPTED rival. -/
theorem test_follow :
    ((tabled 1420153226 [candidate (offset 0) .accepted 2]
          [lister 5 [(insertion, .armed)], lister 6 [(insertion, .armed)]]).stepFollow.ct.records.map
        (fun r => (r.key, r.state, r.armedBy, r.peerArmed))) = [(insertion, .armed, some .follow, 2)] := by decide

theorem witness_CandidatesAreAdmittedAndArmed :
    (insertion ∈ (tabled 1420000000 [] [lister 5 [(insertion, .accepted)]]).newKeys
        ∧ State.reset.tb.timeState = .unset ∧ station.tb.timeState = .set ∧ station.ss.status ≠ .unknown
        ∧ station.ss.d = some 36)
      ∧ (({ insertion with day := 16438 } : Key).valid (some 36) = false
        ∧ (tabled 0 [] [lister 4 [], lister 5 [(insertion, .accepted), ({ insertion with day := 16438 }, .accepted)]]).pt.entries.filter
            PeerEntry.listing =
          [lister 4 []] ++ lister 5 [(insertion, .accepted), ({ insertion with day := 16438 }, .accepted)] :: [])
      ∧ (insertion.valid (some 36) = true ∧ insertion.epoch 36 - 2 ≤ 1420156824 ∧ 1420156823 < insertion.epoch 36 - 2)
      ∧ (8 ≤ (tabled 1420000000 fullTable []).ct.records.length ∧ insertion.epoch 36 < (offset 8).epoch 36
        ∧ (offset 8).epoch 36 ≤ (offset 9).epoch 36
        ∧ (tabled 1420000000 fullTable []).ct.records = fullTable.dropLast ++ candidate (offset 8) .proposed 0 :: [])
      ∧ (tabled 1420000000 fullTable []).ct.keysLaw
      ∧ (station.params = some params ∧ insertion.epoch 36 - params.ha ≤ 1420153226 ∧ 1420156823 < insertion.epoch 36 - 2)
      ∧ (let s := tabled 1420153226 [candidate insertion .proposed 2] [lister 5 [(insertion, .armed)], lister 6 [(insertion, .armed)]]
        params.qmin ≤ s.armedPeers insertion ∧ s.decisionOn insertion ≠ some .deny ∧ s.ct.barred = []
          ∧ (s.followHeld insertion).ct.records.map (·.state) = [.armed]
          ∧ s.stepAcceptance.ct.records.map (fun r => (r.state, r.armedBy)) = [(.armed, some .late)])
      ∧ (let s := tabled 1420153226 fullTable [lister 5 [(insertion, .armed)], lister 6 [(insertion, .armed)]]
        8 ≤ s.ct.records.length ∧ insertion.valid (some 36) = true ∧ insertion.epoch 36 < (offset 8).epoch 36
          ∧ s.stepFollow.ct.records.map (fun r => (r.key.day, r.state)) =
            (16437, .armed) :: (List.range 7).map (fun i => (16438 + i, .proposed))) :=
  ⟨by decide, by decide, by decide, by decide, ⟨by decide, by decide⟩, by decide, by decide, by decide⟩

/-- A pass that changes the view and one that does not. -/
theorem witness_TheViewVersionCountsChanges :
    ((affirmed 1420000000 1).pass none).ct.version = 1
      ∧ (((affirmed 1420000000 1).pass none).pass none).ct.version = 1 := by decide

/-- An ARMED record of the insertion. -/
def armed : Candidate :=
  { key := insertion, epoch := 1420156826, state := .armed, armedBy := some .tally, stance := .witness, pro := 2, con := 0
    peerArmed := 1, sources := [], operator := none, peers := [5], firstSeen := 1420000000 }

/-- The station with that record and a command that waits. -/
def armedStation (c : Instr) : State :=
  { busyStation c with ct := { CandidateTable.reset with records := [armed], epochD := some 36 } }

theorem witness_ArmedLeavesOnlyApplied :
    (armedStation .windowClose).tableLaw ∧ (armedStation .windowClose).pending = [.windowClose]
      ∧ (∃ t, step (armedStation .windowClose) = .next t) ∧ Instr.windowClose ≠ .resetEnd
      ∧ armed ∈ (armedStation .windowClose).ct.records ∧ armed.state = .armed := by
  refine ⟨⟨⟨by decide, by decide⟩, ?_, by decide⟩, rfl, ⟨_, rfl⟩, by decide, by decide, rfl⟩
  intro a ha b hb _ _
  simp only [armedStation, List.mem_singleton] at ha hb
  subst ha hb
  decide

/-! ### Scale State -/

/-- The hypotheses on a hand-over of one change, with D at the bounds that the clauses name. -/
theorem witness_ChangesAreApplied :
    ((handed (due .noLoad 1420156826 insertion 1420156826)).held = false
        ∧ (handed (due .noLoad 1420156826 insertion 1420156826)).mail.handOver =
          [due .noLoad 1420156826 insertion 1420156826]
        ∧ (due .noLoad 1420156826 insertion 1420156826).due = [(insertion, 1420156826)]
        ∧ (handed (due .noLoad 1420156826 insertion 1420156826)).ss.tally = []
        ∧ (handed (due .noLoad 1420156826 insertion 1420156826)).ss.d = some 36)
      ∧ (insertion.kind = .leapInsert ∧ ({ insertion with kind := .leapDelete } : Key).kind = .leapDelete)
      ∧ ((254 < 255 ∧ 255 ≤ 255) ∧ 10 < 11 ∧ 10 ≤ 10)
      ∧ (({ insertion with kind := .offsetSet, value := some 255 } : Key).kind = .offsetSet
        ∧ ({ insertion with kind := .offsetSet, value := some 255 } : Key).value = some 255)
      ∧ (({ kind := .localShift, target := .zone 3, day := 100, value := some 840 } : Key).kind = .localShift
        ∧ ({ kind := .localShift, target := .zone 3, day := 100, value := some 840 } : Key).target = .zone 3 ∧ 3 < 4) := by
  decide

/-- The station with this scale status, tally and yield timer. -/
def tallied (status : ScaleStatus) (tally : List (Nat × Nat)) (timer : Nat) : State :=
  { handed { due .noLoad 100 insertion 0 with due := [] } with
    ss := { ScaleState.reset with d := some 36, status := status, tally := tally, yieldValue := some 37, yieldTimer := timer } }

theorem witness_AcquisitionAndYield :
    ((tallied .stored [(37, 2)] 0).held = false ∧ (tallied .stored [(37, 2)] 0).params = some params
        ∧ (tallied .stored [(37, 2)] 0).mail.handOver = [{ due .noLoad 100 insertion 0 with due := [] }])
      ∧ ((tallied .stored [(37, 2)] 0).ss.leader params.qmin = some (37, 2)
        ∧ (tallied .stored [(37, 1)] 0).ss.leader params.qmin = none
        ∧ (tallied .confirmed [(36, 2)] 0).ss.leader params.qmin = some (36, 2))
      ∧ ((tallied .confirmed [(37, 2)] 58).ss.yieldTimer + 1 ≠ params.yieldDelay
        ∧ (tallied .confirmed [(37, 2)] 59).ss.yieldTimer + 1 = params.yieldDelay
        ∧ (tallied .confirmed [(37, 2)] 59).ss.d ≠ some 37)
      ∧ ((tallied .confirmed [(37, 2)] 60).ss.yieldValue = some 37
        ∧ (tallied .confirmed [(37, 2)] 60).ss.yieldTimer = params.yieldDelay) := by decide

theorem witness_TheTallyCountsStations :
    station.held = false ∧ 0 < ({ Mail.reset with source := 1 } : Mail).source
      ∧ 0 < ({ Mail.reset with peerScale := 1 } : Mail).peerScale := by decide

/-! ### The lanes -/

/-- A lane profile. -/
def lane (kind : LaneKind) : LaneProfile :=
  { kind := kind, zone := if kind = .localTime then some 0 else none, lead := 1
    window := if kind = .smear then some 7200 else none }

/-- The second notice of the inserted second of 2016. -/
def notice (status : ScaleStatus) (timeState : TimeState) : SecondNotice :=
  { t := 1420156826, timeState := timeState, pulseState := .locked, load := .noLoad, d := some 37, status := status
    zones := [330, 0, 0, 0], marker := true, utcStep := false, zoneSteps := [false, false, false, false]
    applied := [{ key := insertion, void := false }], scaleGiven := false }

/-- The station with a lane of each kind and what waits for the generator. -/
def laned (n : SecondNotice) (a : LaneArming) : State :=
  { station with
    ls := { LaneStamps.reset with laneCount := 4, profiles := [lane .tai, lane .utc, lane .smear, lane .localTime] }
    mail := { Mail.reset with second := [n], laneArming := [a] } }

/-- The arming notice of the insertion. -/
def arming : LaneArming :=
  { armed := [{ key := insertion, epoch := 1420156826, x := 1420156827 }], t := 1420153226 }

/-- The smear of the insertion over the 7,200 seconds before its window end. -/
def smear : Smear := { key := insertion, baseD := 36, x := 1420156827, t0 := 1420149627, width := 7200 }

/-- The second notice of a hand-over that has moved D, with the scale notice of the same work still waiting or already taken. -/
def noticed (waiting : List ScaleNotice) : State :=
  let s := laned { notice .confirmed .set with scaleGiven := true } arming
  { s with mail := { s.mail with candidateScale := waiting } }

theorem witness_SecondNoticesFormStamps :
    ((laned (notice .confirmed .unset) arming).held = false
        ∧ (laned (notice .confirmed .unset) arming).mail.second = [notice .confirmed .unset]
        ∧ (notice .confirmed .unset).timeState = .unset ∧ station.ls.laneCount = 0)
      ∧ ((notice .unknown .set).timeState = .set ∧ (notice .unknown .set).status = .unknown
        ∧ 0 < (laned (notice .confirmed .set) arming).ls.laneCount ∧ (notice .confirmed .set).scaleGiven = false
        ∧ (laned (notice .confirmed .set) arming).ls.profiles.map (·.kind) = [.tai, .utc, .smear, .localTime]
        ∧ (notice .confirmed .set).status ≠ .unknown ∧ (notice .confirmed .set).d = some 37
        ∧ (notice .confirmed .set).marker = true
        ∧ (((notice .confirmed .set).t : Int) - ((37 : Int) - 10)) % 60 = 59
        ∧ (notice .confirmed .set).zones[0]? = some 330 ∧ (lane .localTime).zone = some 0
        ∧ ({ notice .unknown .set with d := none, marker := false } : SecondNotice).d = none
        ∧ (notice .unknown .set).t + 10 < 4039372800 ∧ 4039372800 ≤ 4039372790 + 10)
      ∧ (laned (notice .confirmed .set) arming).ls.lanesLaw
      ∧ ((noticed []).mail.second = [{ notice .confirmed .set with scaleGiven := true }]
        ∧ (∀ m ∈ (noticed []).mail.candidateScale, m.ofEdge = false)
        ∧ ∃ m ∈ (noticed [scaleNotice]).mail.candidateScale, m.ofEdge = true)
      ∧ ∃ t, exec .candidateScaleNotice (noticed [scaleNotice]) = .next t :=
  ⟨by decide, by decide, ⟨by decide, by decide, by decide, by decide⟩, by decide, ⟨_, rfl⟩⟩

/-- R142, R144, R148, R151: the kinds of the stamps of a second, from a generator that holds the smear of the insertion or none. -/
def stampKinds (n : SecondNotice) (held : Option Smear) : List (Option StampKind) :=
  (({ (laned n arming).ls with smears := List.replicate 8 held } : LaneStamps).form [] n).latest.map (Option.map (·.stamp.kind))

/-- The inserted second: LEAP on the UTC and LOCAL lanes, SMEARING on a lane that smears it, STEPPED on one that holds no record; a
time step opens a stepped second on every lane; beyond the calendar every lane is OUT_OF_RANGE. -/
theorem test_stamp_kinds :
    (stampKinds (notice .confirmed .set) (some smear)).take 4 = [some .normal, some .leap, some .smearing, some .leap]
      ∧ (stampKinds (notice .confirmed .set) none).take 4 = [some .normal, some .leap, some .stepped, some .leap]
      ∧ (stampKinds { notice .confirmed .set with load := .stepped 5, utcStep := true } none).take 4 =
        List.replicate 4 (some .stepped)
      ∧ (stampKinds { notice .confirmed .set with t := 4294967295 } none).take 4 = List.replicate 4 (some .outOfRange) := by
  decide

/-- R145: the record of a leap within the lead sets the indicator, and an ARMED one decides before an ACCEPTED one. -/
theorem test_leap_indicator :
    leapIndicator [candidate { insertion with kind := .leapDelete } .accepted 0, candidate insertion .armed 0]
        { notice .confirmed .set with t := 1420156000, d := some 36, marker := false } 1 = .insert
      ∧ leapIndicator [candidate { insertion with kind := .leapDelete } .accepted 0]
        { notice .confirmed .set with t := 1420156000, d := some 36, marker := false } 1 = .delete
      ∧ leapIndicator [] { notice .confirmed .set with marker := false } 1 = .noLeap := by decide

theorem witness_SmearRecordsAndTheStream :
    ((laned (notice .confirmed .set) arming).held = false
        ∧ (laned (notice .confirmed .set) arming).mail.laneArming = arming :: []
        ∧ arming.armed = [{ key := insertion, epoch := 1420156826, x := 1420156827 }] ∧ insertion.isLeap = true
        ∧ (laned (notice .confirmed .set) arming).ss.d = some 36
        ∧ (laned (notice .confirmed .set) arming).ls.profiles[2]? = some (lane .smear) ∧ (lane .smear).window = some 7200)
      ∧ (laned (notice .confirmed .set) arming).ls.lanesLaw
      ∧ (sending.ls.stream = .sending ∧ sending.held = false ∧ sending.ls.laneCount ≤ sending.ls.latest.length
        ∧ ({ LaneStamps.reset with laneCount := 0, stream := .sending } : LaneStamps).stream = .sending)
      ∧ (asking.ls.stream = .idle ∧ (asking.stampPins 0) = (false, false)) :=
  ⟨by decide, ⟨by decide, by decide, by decide, by decide⟩, by decide, by decide⟩

/-- R150: at a time step a lane that held no record takes one for an ARMED leap ahead, with T0 no earlier than T. -/
theorem test_smear_retaken :
    checkSmear [candidate insertion .armed 0]
        { notice .confirmed .set with t := 1420150000, d := some 36, load := .stepped (-7000), applied := [] } 7200 none =
      some { key := insertion, baseD := 36, x := 1420156827, t0 := 1420150000, width := 6827 } := by decide

set_option maxRecDepth 20000 in
/-- R152: the first record of the stream opens with the bits of lane 0's first byte, and the frame line is low at period 176. -/
theorem test_stream_pins :
    let s : State := { sending with ls := sending.ls.form [] (notice .confirmed .set) }
    (List.range 8).map s.stampPins = [false, false, false, false, false, false, false, true].map (fun b => (true, b))
      ∧ s.stampPins 176 = (false, false) ∧ (s.stampPins 177).1 = true := by decide

theorem witness_SmearsSpreadTheSecond :
    smear.sound ∧ smear.key.isLeap = true ∧ smear.t0 < 1420149628 ∧ 1420156826 < smear.x ∧ (1420156825 : Int) + 1 < smear.x :=
  ⟨⟨by decide, by decide, by decide⟩, by decide, by decide, by decide, by decide⟩

/-! ### The store -/

theorem witness_SlotRoundTrip :
    record.sound ∧ 4294967295 < 4294967296 ∧ Memory.wf [] = true
      ∧ (record.target = .utc ∧ record.kind = .leapInsert ∧ zoneOffsetOk (-720) = true ∧ zoneOffsetOk 840 = true) :=
  ⟨record_sound, by decide, rfl, by decide⟩

/-- The part after reset, its array holding the record in slot 63 with the last sequence. -/
def kept : State :=
  { State.reset with hs := HistoryStore.reset (Memory.writeBytes [] 1260 (record.slotBytes 4294967295)) }

set_option maxRecDepth 40000 in
theorem witness_TheScanSettlesTheStore :
    (State.reset.held = false ∧ State.reset.hs.state = .scanning ∧ State.reset.hs.queue = []
        ∧ State.reset.hs.inhibitPending = false ∧ ∀ i, i < 64 → State.reset.hs.classOf i ≠ .valid)
      ∧ ({ HistoryStore.reset [] with inhibitPending := true, queue := [record] } : HistoryStore).queue = record :: []
      ∧ (kept.hs.classOf 63 = .valid ∧ slotSequence (kept.hs.array.slot 63) = 4294967295
        ∧ byteAt (kept.hs.array.slot 63) 4 = 1 ∧ 10 ≤ byteAt (kept.hs.array.slot 63) 12
        ∧ ∀ j, j < 64 → kept.hs.classOf j = .valid → j ≠ 63 →
          slotSequence (kept.hs.array.slot j) < slotSequence (kept.hs.array.slot 63)) := by decide

/-- The same with inhibit pending. -/
def inhibiting (s : State) : State := { s with hs := { s.hs with inhibitPending := true } }

/-- The station that programs slot 0 with two records queued. -/
def appending : State :=
  let s := working (.program (record.slotBytes 1) 1) 0
  { s with hs := { s.hs with queue := [record, { record with epochT := 1420156827 }], nextSequence := some 2 } }

set_option maxRecDepth 40000 in
/-- R162, R166: a verified program is followed by the next record, with the next sequence; with inhibit pending the record behind it
is told as lost. -/
theorem test_next_write_begins :
    after (.programComplete (record.slotBytes 1)) appending
        (fun t =>
          t.hs.state == .programming && t.hs.pointer == 1 && t.hs.nextSequence == some 3 && t.hs.queue.length == 1
            && t.hs.operation == .program (({ record with epochT := 1420156827 } : HistoryRecord).slotBytes 2) 2) = true
      ∧ after (.programComplete (record.slotBytes 1)) (inhibiting appending)
        (fun t =>
          t.hs.state == .inhibited
            && t.cp.queue.getLast?.map (·.event) == some (.storeGap .inhibited 1 .leapInsert 1420156827)) = true := by decide

set_option maxRecDepth 40000 in
/-- R163: after a first voiding the same record is written again, at the next slot and with a new sequence. -/
theorem test_retry :
    after .voidComplete { appending with hs := { appending.hs with operation := .voiding (List.replicate 20 0x3C) 1 } }
      (fun t =>
        t.hs.failureRun == 1 && t.hs.pointer == 1 && t.hs.queue.length == 2
          && t.hs.operation == .program (record.slotBytes 2) 2) = true := by decide

set_option maxRecDepth 40000 in
theorem witness_StoreOperationsEnd :
    ((working (.program (record.slotBytes 1) 1) 63).held = false
        ∧ (working (.program (record.slotBytes 1) 1) 63).hs.pointer < 64
        ∧ (working (.program (record.slotBytes 1) 1) 63).hs.array.wf = true ∧ (record.slotBytes 1).length = 20
        ∧ cellsAfter ((working (.program (record.slotBytes 1) 1) 63).hs.array.slot 63) (record.slotBytes 1) = record.slotBytes 1
        ∧ (working (.program (record.slotBytes 1) 1) 63).hs.inhibitPending = false
        ∧ (inhibiting (working (.program (record.slotBytes 1) 1) 63)).hs.inhibitPending = true
        ∧ (inhibiting (working (.program (record.slotBytes 1) 1) 63)).hs.operation = .program (record.slotBytes 1) 1
        ∧ cellsAfter ((working (.program (record.slotBytes 1) 1) 63).hs.array.slot 63) [] ≠ record.slotBytes 1)
      ∧ ((working (.voiding (record.slotBytes 1) 1) 0).hs.operation = .voiding (record.slotBytes 1) 1
        ∧ (working (.voiding (record.slotBytes 1) 1) 0).hs.failureRun = 0
        ∧ (inhibiting (working (.voiding (record.slotBytes 1) 1) 0)).hs.operation = .voiding (record.slotBytes 1) 1)
      ∧ ((inhibiting erasing).hs.operation = .erase ∧ (inhibiting erasing).hs.inhibitPending = true
        ∧ erasing.hs.queue = [record] ∧ erasing.hs.nextSequence = some 1)
      ∧ (erasing.hs.operation = .erase ∧ erasing.hs.eraseRun = 0 ∧ erasing.hs.inhibitPending = false
        ∧ (pageAfter erasing.hs.array 1 [0x00]).getD 0 0xFF ≠ 0xFF#8)
      ∧ (station.hs.state = .idle ∧ station.hs.queue.length < 4 ∧ station.hs.nextSequence = some 1
        ∧ station.hs.writableFrom 0 = true ∧ erasing.hs.writableFrom 16 = false) := by decide

/-- R160, R167: a fifth record is told as lost, and the first posted to an INHIBITED store. -/
theorem test_store_gaps :
    ((({ working .noOperation 0 with
          hs := { (working .noOperation 0).hs with queue := List.replicate 4 record } } : State).postRecord
          record).cp.queue.getLast?.map (·.event)) = some (.storeGap .queueFull 1 .leapInsert 1420156826)
      ∧ ((({ station with hs := { station.hs with state := .inhibited } } : State).postRecord record).cp.queue.getLast?.map
          (·.event)) = some (.storeGap .inhibited 1 .leapInsert 1420156826) := by decide

theorem witness_PrepareExtractionInhibits :
    (asking.accepting ∧ asking.hs.state = .idle ∧ asking.hs.queue = []) ∧ asked.accepting ∧ asked.hs.state = .scanning :=
  ⟨⟨asking_accepts, by decide⟩, asked_accepts, by decide⟩

end Sys2Proof.Tests
end

section
/-! The Calendar Unit: the days of the civil calendar, label counts and keys (R4 to R17). -/

namespace Sys2Proof.Machine

/-! ## Days of the calendar (R5, R7, R17) -/

/-- The first day of year of a month; a month past December names the end of the year (Table 1-1). -/
def monthStart (leapYear : Bool) (month : Nat) : Nat :=
  (monthStarts leapYear ++ [if leapYear then 366 else 365]).getD (month - 1) 0

/-- The length of a civil month. -/
def monthLength (leapYear : Bool) (month : Nat) : Nat :=
  if month = 2 then (if leapYear then 29 else 28)
  else if month = 4 ∨ month = 6 ∨ month = 9 ∨ month = 11 then 30
  else 31

/-- The first day of a year of a cycle, within the cycle (R7). -/
def yearStart (year : Nat) : Nat := if year = 0 then 0 else 366 + 365 * (year - 1)

/-- The day number of a date: the cycle of four years, the year in it, the month and the day of the month. -/
def dayNumber (cycle year month day : Nat) : Nat :=
  1461 * cycle + yearStart year + monthStart (year == 0) month + (day - 1)

/-- A date of the civil calendar, its year given by the cycle and the year in it. -/
def isDate (year month day : Nat) : Prop :=
  year < 4 ∧ 1 ≤ month ∧ month ≤ 12 ∧ 1 ≤ day ∧ day ≤ monthLength (year == 0) month

theorem monthStart_succ (leapYear : Bool) {month : Nat} (h1 : 1 ≤ month) (h12 : month ≤ 12) :
    monthStart leapYear (month + 1) = monthStart leapYear month + monthLength leapYear month := by
  have hall : ∀ m, m < 13 → 1 ≤ m → monthStart leapYear (m + 1) = monthStart leapYear m + monthLength leapYear m := by
    cases leapYear <;> decide
  exact hall month (Nat.lt_succ_of_le h12) h1

theorem monthLength_pos (leapYear : Bool) (month : Nat) : 28 ≤ monthLength leapYear month := by
  unfold monthLength
  repeat' split
  all_goals omega

theorem monthStart_eq (leapYear : Bool) {month : Nat} (h1 : 1 ≤ month) (h12 : month ≤ 12) :
    (monthStarts leapYear).getD (month - 1) 0 = monthStart leapYear month := by
  have hall : ∀ m, m < 13 → 1 ≤ m → (monthStarts leapYear).getD (m - 1) 0 = monthStart leapYear m := by
    cases leapYear <;> decide
  exact hall month (Nat.lt_succ_of_le h12) h1

/-- The months up to one begin no later than it, and those after it no earlier than the next. -/
theorem monthStarts_split (leapYear : Bool) {month : Nat} (h1 : 1 ≤ month) (h12 : month ≤ 12) :
    (∀ start ∈ (monthStarts leapYear).take month, start ≤ monthStart leapYear month)
      ∧ (∀ start ∈ (monthStarts leapYear).drop month, monthStart leapYear (month + 1) ≤ start)
      ∧ ((monthStarts leapYear).take month).length = month := by
  have hall : ∀ m, m < 13 → 1 ≤ m →
      (∀ start ∈ (monthStarts leapYear).take m, start ≤ monthStart leapYear m)
        ∧ (∀ start ∈ (monthStarts leapYear).drop m, monthStart leapYear (m + 1) ≤ start)
        ∧ ((monthStarts leapYear).take m).length = m := by
    cases leapYear <;> decide
  exact hall month (Nat.lt_succ_of_le h12) h1

theorem monthStart_le_yearEnd (leapYear : Bool) {month : Nat} (h1 : 1 ≤ month) (h12 : month ≤ 12) :
    monthStart leapYear (month + 1) ≤ if leapYear then 366 else 365 := by
  have hall : ∀ m, m < 13 → 1 ≤ m → monthStart leapYear (m + 1) ≤ if leapYear then 366 else 365 := by
    cases leapYear <;> decide
  exact hall month (Nat.lt_succ_of_le h12) h1

/-- The month of a day of year is the one whose span it lies in. -/
theorem filter_monthStarts {leapYear : Bool} {month doy : Nat} (h1 : 1 ≤ month) (h12 : month ≤ 12)
    (hlo : monthStart leapYear month ≤ doy) (hhi : doy < monthStart leapYear (month + 1)) :
    ((monthStarts leapYear).filter (fun start => decide (start ≤ doy))).length = month := by
  obtain ⟨hbefore, hafter, hlength⟩ := monthStarts_split leapYear h1 h12
  have htake : ((monthStarts leapYear).take month).filter (fun start => decide (start ≤ doy))
      = (monthStarts leapYear).take month :=
    List.filter_eq_self.2 fun start hs => decide_eq_true (Nat.le_trans (hbefore start hs) hlo)
  have hdrop : ((monthStarts leapYear).drop month).filter (fun start => decide (start ≤ doy)) = [] :=
    List.filter_eq_nil_iff.2 fun start hs => by simpa using Nat.lt_of_lt_of_le hhi (hafter start hs)
  rw [← List.take_append_drop month (monthStarts leapYear), List.filter_append, htake, hdrop, List.append_nil, hlength]

/-- Every day of year before the end of a month lies in a month up to it. -/
theorem exists_month {leapYear : Bool} {doy : Nat} (last : Nat) (h : doy < monthStart leapYear (last + 1)) :
    ∃ month, 1 ≤ month ∧ month ≤ last ∧ monthStart leapYear month ≤ doy ∧ doy < monthStart leapYear (month + 1) := by
  induction last with
  | zero => cases leapYear <;> exact absurd h (Nat.not_lt_zero doy)
  | succ last ih =>
    by_cases hd : doy < monthStart leapYear (last + 1)
    · obtain ⟨month, h1, hl, hspan⟩ := ih hd
      exact ⟨month, h1, by omega, hspan⟩
    · exact ⟨last + 1, by omega, by omega, Nat.not_lt.1 hd, h⟩

/-- A day number splits into its cycle, the year in the cycle and the day of the year (R7). -/
theorem yearInCycle_spec (n : Nat) :
    (yearInCycle n).1 < 4 ∧ n = 1461 * (n / 1461) + yearStart (yearInCycle n).1 + (yearInCycle n).2
      ∧ (yearInCycle n).2 < if (yearInCycle n).1 == 0 then 366 else 365 := by
  unfold yearInCycle yearStart
  dsimp only
  split
  · refine ⟨by omega, ?_, by simpa⟩
    simp only [if_true]
    omega
  · refine ⟨by omega, ?_, ?_⟩
    · rw [if_neg (by omega)]
      omega
    · rw [if_neg (by simp)]
      omega

theorem yearInCycle_eq {n cycle year doy : Nat} (hy : year < 4) (hd : doy < if year == 0 then 366 else 365)
    (hn : n = 1461 * cycle + yearStart year + doy) : n / 1461 = cycle ∧ yearInCycle n = (year, doy) := by
  unfold yearStart at hn
  unfold yearInCycle
  dsimp only
  rcases Nat.eq_zero_or_pos year with rfl | hp
  · simp only [beq_self_eq_true, if_true] at hd hn
    refine ⟨by omega, ?_⟩
    rw [if_pos (by omega)]
    exact congrArg _ (by omega)
  · have hne : year ≠ 0 := by omega
    simp only [beq_iff_eq, hne, if_false] at hd hn
    have hc : n / 1461 = cycle := by omega
    have hr : n % 1461 = 366 + 365 * (year - 1) + doy := by omega
    refine ⟨hc, ?_⟩
    rw [hr, if_neg (by omega), show 366 + 365 * (year - 1) + doy - 366 = 365 * (year - 1) + doy by omega, Prod.mk.injEq]
    omega

/-- The day of year of a date lies within its month, and so within its year. -/
theorem isDate.dayOfYear {year month day : Nat} (h : isDate year month day) :
    monthStart (year == 0) month + (day - 1) < monthStart (year == 0) (month + 1)
      ∧ monthStart (year == 0) month + (day - 1) < if year == 0 then 366 else 365 := by
  obtain ⟨-, h1, h12, hd1, hd⟩ := h
  have hs := monthStart_succ (year == 0) h1 h12
  have he := monthStart_le_yearEnd (year == 0) h1 h12
  omega

/-- The day number of a date reads as that date (R7). -/
theorem dayNumber_reads (cycle : Nat) {year month day : Nat} (h : isDate year month day) :
    yearOf (dayNumber cycle year month day) = 1972 + 4 * cycle + year
      ∧ monthOf (dayNumber cycle year month day) = month ∧ dayOfMonth (dayNumber cycle year month day) = day := by
  obtain ⟨hspan, hyear⟩ := h.dayOfYear
  obtain ⟨hy, h1, h12, hd1, -⟩ := h
  obtain ⟨hc, hr⟩ := yearInCycle_eq (n := dayNumber cycle year month day) (cycle := cycle) hy hyear
    (by unfold dayNumber; omega)
  have hm : monthOf (dayNumber cycle year month day) = month := by
    unfold monthOf
    rw [hr]
    exact filter_monthStarts h1 h12 (Nat.le_add_right _ _) hspan
  refine ⟨by rw [yearOf, hc, hr], hm, ?_⟩
  simp only [dayOfMonth, hm, hr, monthStart_eq _ h1 h12]
  omega

/-- Every day number is that of a date (R7). -/
theorem exists_date (n : Nat) : ∃ cycle year month day, isDate year month day ∧ n = dayNumber cycle year month day := by
  obtain ⟨hy, hn, hd⟩ := yearInCycle_spec n
  have hend : (yearInCycle n).2 < monthStart ((yearInCycle n).1 == 0) (12 + 1) := by
    cases hl : (yearInCycle n).1 == 0 <;> rw [hl] at hd <;> exact hd
  obtain ⟨month, h1, h12, hlo, hhi⟩ := exists_month 12 hend
  have hs := monthStart_succ ((yearInCycle n).1 == 0) h1 h12
  refine ⟨n / 1461, (yearInCycle n).1, month, (yearInCycle n).2 - monthStart ((yearInCycle n).1 == 0) month + 1,
    ⟨hy, h1, h12, by omega, by omega⟩, ?_⟩
  unfold dayNumber
  omega

theorem dayNumber_add (cycle year month : Nat) {day : Nat} (h : 1 ≤ day) (k : Nat) :
    dayNumber cycle year month (day + k) = dayNumber cycle year month day + k := by
  unfold dayNumber
  omega

/-- A month is followed by the first of the next month, or of the next year. -/
theorem dayNumber_nextMonth (cycle : Nat) {year month : Nat} (hy : year < 4) (h1 : 1 ≤ month) (h12 : month ≤ 12) :
    ∃ cycle' year', isDate year' (if month = 12 then 1 else month + 1) 1
      ∧ 4 * cycle' + year' = (if month = 12 then 4 * cycle + year + 1 else 4 * cycle + year)
      ∧ dayNumber cycle' year' (if month = 12 then 1 else month + 1) 1
        = dayNumber cycle year month 1 + monthLength (year == 0) month := by
  have hfirst (year' month' : Nat) (h4 : year' < 4) (hm1 : 1 ≤ month') (hm12 : month' ≤ 12) : isDate year' month' 1 :=
    ⟨h4, hm1, hm12, Nat.le_refl 1, Nat.le_trans (by omega) (monthLength_pos _ _)⟩
  by_cases hm : month = 12
  · subst hm
    have hdec : monthStart (year == 0) 12 + monthLength (year == 0) 12 = if year == 0 then 366 else 365 := by
      cases year == 0 <;> rfl
    have hjan (leapYear : Bool) : monthStart leapYear 1 = 0 := by cases leapYear <;> rfl
    by_cases h3 : year = 3
    · subst h3
      refine ⟨cycle + 1, 0, hfirst 0 1 (by omega) (by omega) (by omega), by simp; omega, ?_⟩
      simp [dayNumber, hjan, yearStart] at hdec ⊢
      omega
    · refine ⟨cycle, year + 1, hfirst (year + 1) 1 (by omega) (by omega) (by omega), by simp; omega, ?_⟩
      rcases Nat.eq_zero_or_pos year with rfl | hp
      · simp [dayNumber, hjan, yearStart] at hdec ⊢
        omega
      · have hne : year ≠ 0 := by omega
        simp [dayNumber, hjan, yearStart, hne] at hdec ⊢
        omega
  · refine ⟨cycle, year, ?_⟩
    simp only [hm, if_false, true_and]
    refine ⟨hfirst year (month + 1) hy (by omega) (by omega), ?_⟩
    have hs := monthStart_succ (year == 0) h1 h12
    unfold dayNumber
    omega

/-- The day after a date, field by field. -/
theorem day_successor (n : Nat) :
    let length := monthLength (yearOf n % 4 == 0) (monthOf n)
    dayOfMonth n ≤ length
      ∧ yearOf (n + 1) = (if dayOfMonth n = length ∧ monthOf n = 12 then yearOf n + 1 else yearOf n)
      ∧ monthOf (n + 1) = (if dayOfMonth n = length then (if monthOf n = 12 then 1 else monthOf n + 1) else monthOf n)
      ∧ dayOfMonth (n + 1) = (if dayOfMonth n = length then 1 else dayOfMonth n + 1) := by
  obtain ⟨cycle, year, month, day, hdate, rfl⟩ := exists_date n
  obtain ⟨hy, h1, h12, hd1, hd⟩ := hdate
  obtain ⟨hyear, hmonth, hday⟩ := dayNumber_reads cycle ⟨hy, h1, h12, hd1, hd⟩
  have hleap : ((1972 + 4 * cycle + year) % 4 == 0) = (year == 0) := by
    rw [show (1972 + 4 * cycle + year) % 4 = year by omega]
  simp only [hyear, hmonth, hday, hleap]
  refine ⟨hd, ?_⟩
  by_cases hl : day = monthLength (year == 0) month
  · obtain ⟨cycle', year', hdate', hyear', hnext⟩ := dayNumber_nextMonth cycle hy h1 h12
    have hsucc : dayNumber cycle year month day + 1 = dayNumber cycle' year' (if month = 12 then 1 else month + 1) 1 := by
      rw [hnext, ← hl]
      unfold dayNumber
      omega
    obtain ⟨hy', hm', hd'⟩ := dayNumber_reads cycle' hdate'
    rw [hsucc, hy', hm', hd']
    simp only [hl, true_and, if_true, and_true]
    by_cases hm : month = 12
    · simp only [hm, if_true] at hyear' ⊢
      omega
    · simp only [hm, if_false] at hyear' ⊢
      omega
  · obtain ⟨hy', hm', hd'⟩ := dayNumber_reads cycle (year := year) (month := month) (day := day + 1)
      ⟨hy, h1, h12, by omega, by omega⟩
    rw [← dayNumber_add cycle year month hd1, hy', hm', hd']
    simp [hl]

/-! ## Label counts (R4, R7 to R9) -/

theorem inCalendar_iff (label : Int) : inCalendar label = true ↔ 0 ≤ label ∧ label < 4039372800 := by
  simp only [inCalendar, Bool.and_eq_true, decide_eq_true_eq]
  rfl

/-- The fields of a label in calendar range, by its day and its time of day (R7, R8). -/
theorem convertLabel_time {n h m x : Nat} (hn : n < 46752) (hh : h < 24) (hm : m < 60) (hx : x < 60) (inserted : Bool) :
    convertLabel ((86400 * n + 3600 * h + 60 * m + x : Nat) : Int) inserted =
      { outOfRange := false
        fields :=
          { year := yearOf n, month := monthOf n, day := dayOfMonth n, hour := h, minute := m
            second := if inserted && x == 59 then 60 else x, weekday := weekdayOf n } } := by
  have hday : (86400 * n + 3600 * h + 60 * m + x) / 86400 = n := by omega
  have htime : (86400 * n + 3600 * h + 60 * m + x) % 86400 = 3600 * h + 60 * m + x := by omega
  have hhour : (3600 * h + 60 * m + x) / 3600 = h := by omega
  have hminute : (3600 * h + 60 * m + x) % 3600 / 60 = m := by omega
  have hsecond : (3600 * h + 60 * m + x) % 60 = x := by omega
  rw [convertLabel, if_pos ((inCalendar_iff _).2 (by omega))]
  simp only [Int.toNat_natCast, hday, htime, hhour, hminute, hsecond]

/-- The fields of the first second of a day. -/
theorem convertLabel_day {n : Nat} (hn : n < 46752) :
    convertLabel ((86400 * n : Nat) : Int) false =
      { outOfRange := false
        fields :=
          { year := yearOf n, month := monthOf n, day := dayOfMonth n, hour := 0, minute := 0, second := 0
            weekday := weekdayOf n } } :=
  convertLabel_time (h := 0) (m := 0) (x := 0) hn (by omega) (by omega) (by omega) false

theorem firstOfMonth_iff (n : Nat) :
    firstOfMonth n = true ↔ n < 46752 ∧ (convertLabel ((86400 * n : Nat) : Int) false).fields.day = 1 := by
  simp only [firstOfMonth, Bool.and_eq_true, decide_eq_true_eq, beq_iff_eq]
  exact and_congr_right fun hn => by rw [convertLabel_day hn]

theorem convertLabel_inserted (label : Int) (h : inCalendar label = true) :
    (convertLabel label true).fields =
      { (convertLabel label false).fields with
        second := if (convertLabel label false).fields.second = 59 then 60 else (convertLabel label false).fields.second } := by
  simp [convertLabel, h]

theorem convertLabel_outOfRange {label : Int} (inserted : Bool) (h : inCalendar label = false) :
    convertLabel label inserted = { outOfRange := true, fields := outOfRangeFields } := by
  simp [convertLabel, h]

/-! ## The next month (R17) -/

/-- The first day of the month that follows a date's month. -/
theorem nextMonthDay_date {cycle year month day x : Nat} (hdate : isDate year month day) (hx : x < 86400)
    (hn : dayNumber cycle year month day < 46752) :
    nextMonthDay ((86400 * dayNumber cycle year month day + x : Nat) : Int) =
      some (dayNumber cycle year month 1 + monthLength (year == 0) month) := by
  obtain ⟨hyear, hmonth, -⟩ := dayNumber_reads cycle hdate
  obtain ⟨hy, h1, h12, -, -⟩ := hdate
  obtain ⟨cycle', year', ⟨hy4, hm1, hm12, -, -⟩, hnext, hfirst⟩ := dayNumber_nextMonth cycle hy h1 h12
  have hday : (86400 * dayNumber cycle year month day + x) / 86400 = dayNumber cycle year month day := by omega
  have hfollow : (if month = 12 then 1972 + 4 * cycle + year + 1 else 1972 + 4 * cycle + year) = 1972 + 4 * cycle' + year' := by
    by_cases hm : month = 12
    · simp only [hm, if_true] at hnext ⊢
      omega
    · simp only [hm, if_false] at hnext ⊢
      omega
  rw [nextMonthDay, if_pos ((inCalendar_iff _).2 (by omega))]
  simp only [Int.toNat_natCast, hday, hyear, hmonth, beq_iff_eq, hfollow, ← hfirst,
    show (1972 + 4 * cycle' + year' - 1972) / 4 = cycle' by omega,
    show (1972 + 4 * cycle' + year' - 1972) % 4 = year' by omega, monthStart_eq _ hm1 hm12]
  rfl

/-- The following month begins after the day, within the calendar or at its end, and no day between is a first (R17). -/
theorem nextMonthDay_spec {n x : Nat} (hn : n < 46752) (hx : x < 86400) :
    ∃ first, nextMonthDay ((86400 * n + x : Nat) : Int) = some first ∧ n < first ∧ first ≤ 46752 ∧ dayOfMonth first = 1
      ∧ ∀ j : Nat, n < j → j < first → dayOfMonth j ≠ 1 := by
  obtain ⟨cycle, year, month, day, hdate, rfl⟩ := exists_date n
  have hnext := nextMonthDay_date hdate hx hn
  obtain ⟨hy, h1, h12, hd1, hd⟩ := hdate
  obtain ⟨cycle', year', hdate', -, hfirst⟩ := dayNumber_nextMonth cycle hy h1 h12
  have hday : dayNumber cycle year month day = dayNumber cycle year month 1 + (day - 1) := by unfold dayNumber; omega
  have hlater (k : Nat) (hk : day + k ≤ monthLength (year == 0) month) :
      dayOfMonth (dayNumber cycle year month day + k) = day + k := by
    rw [← dayNumber_add cycle year month hd1]
    exact (dayNumber_reads cycle ⟨hy, h1, h12, by omega, hk⟩).2.2
  have hbetween (j : Nat) (hj : dayNumber cycle year month day < j)
      (hj' : j < dayNumber cycle year month 1 + monthLength (year == 0) month) : dayOfMonth j ≠ 1 := by
    have hk := hlater (j - dayNumber cycle year month day) (by omega)
    rw [show dayNumber cycle year month day + (j - dayNumber cycle year month day) = j by omega] at hk
    omega
  have hend : dayOfMonth 46752 = 1 := rfl
  refine ⟨_, hnext, by omega, ?_, ?_, hbetween⟩
  · exact Nat.not_lt.1 fun hgt => hbetween 46752 hn hgt hend
  · rw [← hfirst]
    exact (dayNumber_reads cycle' hdate').2.2

/-! ## Fields and keys (R10 to R16) -/

/-- Two decimal digits fit a byte (R10). -/
theorem bcd_toNat {v : Nat} (h : v < 100) : (bcd v).toNat = 16 * (v / 10) + v % 10 := by
  rw [bcd, BitVec.toNat_ofNat, Nat.mod_eq_of_lt (by omega), Nat.mul_comm]

theorem lt_of_firstOfMonth {n : Nat} (h : firstOfMonth n = true) : n < 46752 := ((firstOfMonth_iff n).1 h).1

section
variable {k : Key} (d : Option Nat)

/-- When an insertion is valid (R11, R12). -/
theorem Key.valid_leapInsert (hk : k.kind = .leapInsert) :
    k.valid d = true
      ↔ k.target = .utc ∧ k.value = none ∧ firstOfMonth k.day = true ∧ 1 ≤ k.day ∧ ∀ x ∈ d, x + 1 ≤ 255 := by
  have hform : k.formed = true ↔ k.target = .utc ∧ k.value = none ∧ k.day < Config.calendarDays := by
    rw [Key.formed, hk]
    cases k.target <;> cases k.value <;> simp
  have hcond : k.conditionHolds d = true ↔ firstOfMonth k.day = true ∧ 1 ≤ k.day ∧ ∀ x ∈ d, x + 1 ≤ 255 := by
    simp [Key.conditionHolds, hk, Option.all_eq_true, and_assoc]
  rw [Key.valid, Bool.and_eq_true, hform, hcond]
  exact ⟨fun ⟨⟨ht, hv, _⟩, hc⟩ => ⟨ht, hv, hc⟩, fun ⟨ht, hv, hc⟩ => ⟨⟨ht, hv, lt_of_firstOfMonth hc.1⟩, hc⟩⟩

/-- When a deletion is valid (R11, R12). -/
theorem Key.valid_leapDelete (hk : k.kind = .leapDelete) :
    k.valid d = true ↔ k.target = .utc ∧ k.value = none ∧ firstOfMonth k.day = true ∧ ∀ x ∈ d, 11 ≤ x := by
  have hform : k.formed = true ↔ k.target = .utc ∧ k.value = none ∧ k.day < Config.calendarDays := by
    rw [Key.formed, hk]
    cases k.target <;> cases k.value <;> simp
  have hcond : k.conditionHolds d = true ↔ firstOfMonth k.day = true ∧ ∀ x ∈ d, 11 ≤ x := by
    simp [Key.conditionHolds, hk, Option.all_eq_true]
  rw [Key.valid, Bool.and_eq_true, hform, hcond]
  exact ⟨fun ⟨⟨ht, hv, _⟩, hc⟩ => ⟨ht, hv, hc⟩, fun ⟨ht, hv, hc⟩ => ⟨⟨ht, hv, lt_of_firstOfMonth hc.1⟩, hc⟩⟩

/-- When a setting of the offset is valid (R11, R12). -/
theorem Key.valid_offsetSet (hk : k.kind = .offsetSet) :
    k.valid d = true
      ↔ k.target = .utc ∧ (∃ v, k.value = some v ∧ 10 ≤ v ∧ v ≤ 255) ∧ 1 ≤ k.day ∧ k.day < 46752 := by
  have hform : k.formed = true ↔ k.target = .utc ∧ (∃ v, k.value = some v ∧ 0 ≤ v) ∧ k.day < Config.calendarDays := by
    rw [Key.formed, hk]
    cases k.target <;> cases k.value <;> simp [and_comm]
  have hcond : k.conditionHolds d = true ↔ 1 ≤ k.day ∧ ∃ v, k.value = some v ∧ 10 ≤ v ∧ v ≤ 255 := by
    simp [Key.conditionHolds, hk, Option.any_eq_true]
  rw [Key.valid, Bool.and_eq_true, hform, hcond]
  constructor
  · rintro ⟨⟨ht, -, hd⟩, h1, hv⟩
    exact ⟨ht, hv, h1, hd⟩
  · rintro ⟨ht, ⟨v, hv, h10, h255⟩, h1, hd⟩
    exact ⟨⟨ht, ⟨v, hv, by omega⟩, hd⟩, h1, v, hv, h10, h255⟩

/-- When a shift of a zone is valid (R11, R12). -/
theorem Key.valid_localShift (hk : k.kind = .localShift) :
    k.valid d = true
      ↔ (∃ z, k.target = .zone z ∧ z < 4) ∧ k.day < 67322880
        ∧ ∃ v, k.value = some v ∧ -720 ≤ v ∧ v ≤ 840 ∧ v % 15 = 0 := by
  have hform : k.formed = true
      ↔ (∃ z, k.target = .zone z ∧ z < 4) ∧ k.day < Config.calendarMinutes ∧ ∃ v, k.value = some v := by
    rw [Key.formed, hk]
    cases k.target <;> cases k.value <;> simp
  have hcond : k.conditionHolds d = true ↔ ∃ v, k.value = some v ∧ -720 ≤ v ∧ v ≤ 840 ∧ v % 15 = 0 := by
    simp [Key.conditionHolds, hk, Option.any_eq_true, zoneOffsetOk, and_assoc]
  rw [Key.valid, Bool.and_eq_true, hform, hcond]
  constructor
  · rintro ⟨⟨hz, hd, -⟩, hv⟩
    exact ⟨hz, hd, hv⟩
  · rintro ⟨hz, hd, v, hv, hr⟩
    exact ⟨⟨hz, hd, v, hv⟩, v, hv, hr⟩

end

theorem Key.windowEnd_eq (k : Key) (d : Nat) : k.windowEnd d = k.epoch d + if k.kind = .leapInsert then 1 else 0 := by
  unfold Key.windowEnd
  cases k.kind <;> simp

theorem Key.rival_iff (a b : Key) :
    a.rival b = true ↔ a.target = b.target ∧ a.day = b.day ∧ (a.kind ≠ b.kind ∨ a.value ≠ b.value) := by
  simp [Key.rival, Key.sameGroup, and_assoc]

/-- Settles O50: every day number is that of a date and reads as it, so that the days follow one another as the dates do; labels and
keys by their definitions. -/
theorem theCalendarCountsDays : Obligations.TheCalendarCountsDays := by
  refine ⟨rfl, fun n hn => ?_, fun n h m x hn hh hm hx => ?_, fun label inserted => ⟨fun h0 h => ?_, fun h => ?_⟩,
    fun n hn x hx => ?_, fun v => bcd_toNat, fun k d => ?_, fun k d => ⟨?_, k.windowEnd_eq d⟩, Key.rival_iff⟩
  · obtain ⟨-, hyear, hmonth, hday⟩ := day_successor n
    have hweek : weekdayOf (n + 1) = if weekdayOf n = 7 then 1 else weekdayOf n + 1 := by
      unfold weekdayOf
      split <;> omega
    rw [convertLabel_day (show n < 46752 by omega), convertLabel_day (show n + 1 < 46752 by omega)]
    simp only [hyear, hmonth, hday, hweek, monthLength, beq_iff_eq]
  · rw [convertLabel_time hn hh hm hx, convertLabel_day hn]
    rfl
  · exact convertLabel_inserted label ((inCalendar_iff label).2 ⟨h0, h⟩)
  · have hout : inCalendar label = false := Bool.eq_false_iff.2 fun hin => by
      have := (inCalendar_iff label).1 hin
      omega
    exact ⟨convertLabel_outOfRange inserted hout, by simp [nextMonthDay, hout]⟩
  · obtain ⟨first, hnext, hlt, hle, hfirst, hbetween⟩ := nextMonthDay_spec hn hx
    refine ⟨first, hnext, hlt, hle, fun h => ?_, fun j hj hj' => ?_⟩
    · rw [convertLabel_day h]
      exact hfirst
    · rw [convertLabel_day (show j < 46752 by omega)]
      exact hbetween j hj hj'
  · simp only [← firstOfMonth_iff]
    split
    · exact Key.valid_leapInsert d ‹_›
    · exact Key.valid_leapDelete d ‹_›
    · exact Key.valid_offsetSet d ‹_›
    · exact Key.valid_localShift d ‹_›
  · unfold Key.epoch
    cases k.kind <;> rfl

end Sys2Proof.Machine
end

section
/-! The law of the scale, block by block (R120, R121), and the work of Source Intake, which keeps it. -/

namespace Sys2Proof.Machine

/-! ## The law of the scale, block by block -/

/-- The observations a source holds carry values of D (R37, R120). -/
def SourceRecord.reportsD (r : SourceRecord) : Prop := (∀ o ∈ r.last, isOffset o.d) ∧ ∀ o ∈ r.settled, isOffset o.d

/-- What every source reports is a value of D. -/
def SourceIntake.reportsD (si : SourceIntake) : Prop := ∀ r ∈ si.sources, r.reportsD

/-- A CONFIRMED view carries a value of D (R80, R120). -/
def PeerEntry.carriesD (e : PeerEntry) : Prop := ∀ v ∈ e.view, v.status = .confirmed → isOffset v.d

/-- What every CONFIRMED peer carries is a value of D. -/
def PeerTable.carriesD (pt : PeerTable) : Prop := ∀ e ∈ pt.entries, e.carriesD

/-- The part of the law of the scale that lies in Scale State. -/
def ScaleState.lawful (ss : ScaleState) : Prop :=
  ss.offsetLaw ∧ ss.zonesLaw ∧ (∀ x ∈ ss.tally, isOffset x.1) ∧ ∀ v ∈ ss.yieldValue, isOffset v

namespace ScaleState.lawful

variable {ss : ScaleState} (h : ss.lawful)
include h

theorem offset : ss.offsetLaw := h.1

theorem zoneLength : ss.zones.length = 4 := h.2.1.1

theorem zoneOk : ∀ z ∈ ss.zones, zoneOffsetOk z = true := h.2.1.2

theorem tallied : ∀ x ∈ ss.tally, isOffset x.1 := h.2.2.1

theorem yieldsTo : ∀ v ∈ ss.yieldValue, isOffset v := h.2.2.2

end ScaleState.lawful

/-- The keys of the records and of the hand-overs that wait may be applied. -/
def State.keysSound (s : State) : Prop :=
  (∀ r ∈ s.ct.records, r.key.sound) ∧ ∀ h ∈ s.mail.handOver, ∀ x ∈ h.due, x.1.sound

theorem State.scaleLaw_iff (s : State) :
    s.scaleLaw ↔ s.si.reportsD ∧ s.pt.carriesD ∧ s.ss.lawful ∧ s.keysSound := by
  constructor
  · rintro ⟨ho, hz, hs, hp, ht, hy, hr, hh⟩
    exact ⟨hs, hp, ⟨ho, hz, ht, hy⟩, hr, hh⟩
  · rintro ⟨hs, hp, ⟨ho, hz, ht, hy⟩, hr, hh⟩
    exact ⟨ho, hz, hs, hp, ht, hy, hr, hh⟩

theorem State.scaleLaw.scale {s : State} (h : s.scaleLaw) : s.ss.lawful := by
  obtain ⟨-, -, hss, -⟩ := s.scaleLaw_iff.1 h
  exact hss

/-- All that the law of the scale reads of a state. -/
def State.scaleReading (s : State) :
    List SourceRecord × List PeerEntry × ScaleState × List Candidate × List HandOver :=
  (s.si.sources, s.pt.entries, s.ss, s.ct.records, s.mail.handOver)

/-! ## Work that keeps the law and leaves D and the status -/

/-- The work that leads from `s` to `t` keeps the law of the scale and moves neither D nor the scale status. -/
def State.keepsScale (s t : State) : Prop :=
  (s.scaleLaw → t.scaleLaw) ∧ t.ss.d = s.ss.d ∧ t.ss.status = s.ss.status

namespace State.keepsScale

theorem refl (s : State) : s.keepsScale s := ⟨id, rfl, rfl⟩

theorem trans {s t u : State} (h : s.keepsScale t) (h' : t.keepsScale u) : s.keepsScale u :=
  ⟨h'.1 ∘ h.1, h'.2.1.trans h.2.1, h'.2.2.trans h.2.2⟩

/-- Work outside what the law reads. -/
theorem of_reading {s t : State} (h : t.scaleReading = s.scaleReading) : s.keepsScale t := by
  simp only [State.scaleReading, Prod.mk.injEq] at h
  obtain ⟨hsi, hpt, hss, hct, hh⟩ := h
  refine ⟨fun hl => ?_, by rw [hss], by rw [hss]⟩
  simpa only [State.scaleLaw_iff, SourceIntake.reportsD, PeerTable.carriesD, State.keysSound, hsi, hpt, hss, hct, hh] using hl

/-- Work done from a state that reads alike. -/
theorem after {s t u : State} (h : u.keepsScale t) (hr : u.scaleReading = s.scaleReading) : s.keepsScale t :=
  (of_reading hr).trans h

/-- Work up to a state that reads alike. -/
theorem upTo {s t u : State} (h : s.keepsScale u) (hr : t.scaleReading = u.scaleReading) : s.keepsScale t :=
  h.trans (of_reading hr)

theorem of_events {s t : State} (h : t.sansEvents = s.sansEvents) : s.keepsScale t :=
  of_reading (reads_alike State.sansEvents State.scaleReading (fun _ => rfl) h)

theorem of_bus {s t : State} (h : t.outsideBus = s.outsideBus) : s.keepsScale t :=
  of_reading (reads_alike State.outsideBus State.scaleReading (fun _ => rfl) h)

theorem of_store {s t : State} (h : t.outsideStore = s.outsideStore) : s.keepsScale t :=
  of_reading (reads_alike State.outsideStore State.scaleReading (fun _ => rfl) h)

/-- Work of Source Intake. -/
theorem of_sources {s t : State} (h : t.outsideSources = s.outsideSources) (hs : s.si.reportsD → t.si.reportsD) :
    s.keepsScale t := by
  have hr : (t.pt, t.ss, t.ct, t.mail.handOver) = (s.pt, s.ss, s.ct, s.mail.handOver) :=
    reads_alike State.outsideSources (fun s : State => (s.pt, s.ss, s.ct, s.mail.handOver)) (fun _ => rfl) h
  simp only [Prod.mk.injEq] at hr
  obtain ⟨hpt, hss, hct, hh⟩ := hr
  refine ⟨fun hl => ?_, by rw [hss], by rw [hss]⟩
  simp only [State.scaleLaw_iff, State.keysSound, hpt, hss, hct, hh] at hl ⊢
  exact ⟨hs hl.1, hl.2⟩

/-- Work of the Peer Table. -/
theorem of_peers {s t : State} (h : t.outsidePeers = s.outsidePeers) (hp : s.pt.carriesD → t.pt.carriesD) :
    s.keepsScale t := by
  have hr : (t.si, t.ss, t.ct, t.mail.handOver) = (s.si, s.ss, s.ct, s.mail.handOver) :=
    reads_alike State.outsidePeers (fun s : State => (s.si, s.ss, s.ct, s.mail.handOver)) (fun _ => rfl) h
  simp only [Prod.mk.injEq] at hr
  obtain ⟨hsi, hss, hct, hh⟩ := hr
  refine ⟨fun hl => ?_, by rw [hss], by rw [hss]⟩
  simp only [State.scaleLaw_iff, State.keysSound, hsi, hss, hct, hh] at hl ⊢
  exact ⟨hl.1, hp hl.2.1, hl.2.2⟩

/-- Work of the Candidate Table. -/
theorem of_table {s t : State} (h : t.outsideTable = s.outsideTable) (hk : s.keysSound → t.keysSound) :
    s.keepsScale t := by
  have hr : (t.si, t.pt.entries, t.ss) = (s.si, s.pt.entries, s.ss) :=
    reads_alike State.outsideTable (fun s : State => (s.si, s.pt.entries, s.ss)) (fun _ => rfl) h
  simp only [Prod.mk.injEq] at hr
  obtain ⟨hsi, hpt, hss⟩ := hr
  refine ⟨fun hl => ?_, by rw [hss], by rw [hss]⟩
  simp only [State.scaleLaw_iff, PeerTable.carriesD, hsi, hpt, hss] at hl ⊢
  exact ⟨hl.1, hl.2.1, hl.2.2.1, hk hl.2.2.2⟩

end State.keepsScale

/-- Repeated work keeps the scale where each turn does. -/
theorem times_keepsScale {f : State → State} (h : ∀ s : State, s.keepsScale (f s)) (n : Nat) (s : State) :
    s.keepsScale (times n f s) := by
  induction n generalizing s with
  | zero => exact .refl s
  | succ n ih => exact (h s).trans (ih (f s))

/-- Work done item by item keeps the scale where the work for each item does. -/
theorem foldl_keepsScale {α : Type} {f : State → α → State} (h : ∀ (s : State) a, s.keepsScale (f s a)) (l : List α) (s : State) :
    s.keepsScale (l.foldl f s) := by
  induction l generalizing s with
  | nil => exact .refl s
  | cons a l ih => exact (h s a).trans (ih (f s a))

theorem State.raiseAll_keepsScale (s : State) (es : List Event) : s.keepsScale (s.raiseAll es) :=
  .of_events (s.raiseAll_sansEvents es)

/-- What holds of every record of a list holds of every record taken one by one, where the taking keeps it. -/
theorem takeEach_forall {α : Type} {P : α → Prop} {f : Nat → α → α × List Event} (h : ∀ i a, P a → P (f i a).1) (k : Nat)
    {l : List α} (hl : ∀ a ∈ l, P a) : ∀ a ∈ (takeEach f k l).1, P a := by
  induction l generalizing k with
  | nil => exact hl
  | cons a rest ih =>
    obtain ⟨ha, hr⟩ := List.forall_mem_cons.1 hl
    exact List.forall_mem_cons.2 ⟨h k a ha, ih (k + 1) hr⟩

/-! ## Source Intake -/

/-- The work on a source leaves its observations. -/
def SourceRecord.sameReports (r r' : SourceRecord) : Prop := r'.last = r.last ∧ r'.settled = r.settled

theorem SourceRecord.sameReports.reportsD {r r' : SourceRecord} (h : r.sameReports r') (hr : r.reportsD) : r'.reportsD := by
  rw [SourceRecord.reportsD, h.1, h.2]; exact hr

theorem State.recheckSource_sameReports (s : State) (i : Nat) (r : SourceRecord) :
    r.sameReports (s.recheckSource i r).1 := by
  unfold State.recheckSource
  split
  · split <;> exact ⟨rfl, rfl⟩
  · exact ⟨rfl, rfl⟩

theorem State.deriveSource_sameReports (s : State) (i : Nat) (r : SourceRecord) :
    r.sameReports (s.deriveSource i r).1 := by
  unfold State.deriveSource
  split
  · split
    · exact ⟨rfl, rfl⟩
    · split <;> exact ⟨rfl, rfl⟩
  · exact ⟨rfl, rfl⟩

theorem staleSource_sameReports (timeout i : Nat) (r : SourceRecord) : r.sameReports (staleSource timeout i r).1 := by
  unfold staleSource
  split <;> exact ⟨rfl, rfl⟩

theorem ageSource_sameReports (timeout i : Nat) (r : SourceRecord) : r.sameReports (ageSource timeout i r).1 := by
  unfold ageSource
  split
  · exact ⟨rfl, rfl⟩
  · exact staleSource_sameReports timeout i { r with age := upTo 65535 r.age }

/-- An observation that is a D leaves a source whose observations are. -/
theorem State.intake_reportsD (s : State) (nd i : Nat) {o : Observation} {r : SourceRecord} (ho : isOffset o.d)
    (hr : r.reportsD) : (s.intake nd o i r).1.reportsD := by
  have hc : (countObservation nd o r).reportsD := by
    unfold countObservation
    dsimp only
    generalize (if r.last = some o then upTo 255 r.repeats else 1) = repeats
    split
    · exact ⟨by simpa using ho, by simpa using ho⟩
    · exact ⟨by simpa using ho, hr.2⟩
  refine (s.deriveSource_sameReports i _).reportsD ?_
  split <;> exact hc

/-- Work on the sources one by one. -/
theorem State.putSources_keepsScale (s : State) {f : Nat → SourceRecord → SourceRecord × List Event}
    (h : ∀ i r, r.reportsD → (f i r).1.reportsD) : s.keepsScale (s.putSources (takeEach f 0 s.si.sources)) := by
  refine .of_sources (s.putSources_outsideSources _) fun hs => ?_
  rw [State.putSources_si]
  exact takeEach_forall h 0 hs

theorem State.recheckSources_keepsScale (s : State) : s.keepsScale s.recheckSources :=
  s.putSources_keepsScale fun i r => (s.recheckSource_sameReports i r).reportsD

theorem State.deriveSources_keepsScale (s : State) : s.keepsScale s.deriveSources :=
  (s.putSources_keepsScale fun i r => (s.deriveSource_sameReports i r).reportsD).upTo rfl

theorem State.keepItems_keepsScale (s : State) (items : List OperatorItem) : s.keepsScale (s.keepItems items) := by
  unfold State.keepItems
  split
  · exact .refl s
  · exact .of_reading rfl

theorem State.sweepOperator_keepsScale (s : State) : s.keepsScale s.sweepOperator := by
  unfold State.sweepOperator
  split
  · exact s.keepItems_keepsScale _
  · exact .refl s

theorem State.sourceNotices_keepsScale (s : State) (before : SourceIntake) : s.keepsScale (s.sourceNotices before) :=
  .of_reading rfl

/-- The checks, the derivations, the sweep and the notices, which an edge and a scale notice share. -/
theorem State.sourceSweep_keepsScale (s : State) (before : SourceIntake) :
    s.keepsScale ((s.recheckSources.deriveSources.sweepOperator).sourceNotices before) :=
  s.recheckSources_keepsScale.trans <| (State.deriveSources_keepsScale _).trans <|
    (State.sweepOperator_keepsScale _).trans (State.sourceNotices_keepsScale _ _)

theorem State.refreshSources_keepsScale (s : State) (before : SourceIntake) : s.keepsScale (s.refreshSources before) :=
  s.recheckSources_keepsScale.trans <| (State.deriveSources_keepsScale _).trans (State.sourceNotices_keepsScale _ _)

theorem State.sourceEdge_keepsScale (s : State) : s.keepsScale s.sourceEdge := by
  unfold State.sourceEdge
  cases s.params with
  | none => exact (State.sourceSweep_keepsScale _ _).after rfl
  | some p =>
    exact (s.putSources_keepsScale fun i r => (ageSource_sameReports p.sourceTimeout i r).reportsD).trans
      ((State.sourceSweep_keepsScale _ _).after rfl)

theorem State.sourceStale_keepsScale (s : State) (source : Nat) : s.keepsScale (s.sourceStale source) := by
  unfold State.sourceStale
  split
  · refine (s.putSources_keepsScale fun i r hr => ?_).trans (State.sourceNotices_keepsScale _ _)
    split
    · exact (staleSource_sameReports _ i r).reportsD hr
    · exact hr
  · exact .refl s

theorem State.graceExpiry_keepsScale (s : State) : s.keepsScale s.graceExpiry := by
  unfold State.graceExpiry
  split
  · split
    · exact (State.refreshSources_keepsScale _ _).after rfl
    · exact .refl s
  · exact .refl s

theorem State.takeAppliedChange_keepsScale (s : State) (kind : ChangeKind) (dBefore : Nat) :
    s.keepsScale (s.takeAppliedChange kind dBefore) :=
  (State.refreshSources_keepsScale _ _).after rfl

theorem State.takeCandidateNotice_keepsScale (s : State) (n : CandidateNotice) : s.keepsScale (s.takeCandidateNotice n) := by
  have hs : s.keepsScale (if n.leapMoved then s.recheckSources else s) := by
    split
    · exact s.recheckSources_keepsScale
    · exact .refl s
  exact hs.trans <| (State.keepItems_keepsScale _ _).trans (State.sourceNotices_keepsScale _ _)

/-- An observation that passes its checks carries a D (R37). -/
theorem ObserveRequest.isOffset_of_failure_none {o : ObserveRequest} (h : o.failure = none) : isOffset o.d := by
  unfold ObserveRequest.failure at h
  by_cases hd : 10 ≤ o.d ∧ o.d ≤ 255
  · exact hd
  · rw [if_pos hd] at h
    split at h <;> simp at h

theorem State.observe_keepsScale (s : State) (o : ObserveRequest) : s.keepsScale (s.observe o) := by
  unfold State.observe
  split
  · exact .of_reading rfl
  · rename_i p _
    split
    · exact .of_reading rfl
    · rename_i hf
      refine (s.putSources_keepsScale fun i r hr => ?_).upTo rfl
      split
      · exact s.intake_reportsD p.nd i (ObserveRequest.isOffset_of_failure_none hf) hr
      · exact hr

end Sys2Proof.Machine
end

section
/-! The Peer Table and the Candidate Table keep the law of the scale. -/

namespace Sys2Proof.Machine

/-! ## The Peer Table -/

/-- The work on an entry leaves its view. -/
theorem PeerEntry.carriesD_of_view {e e' : PeerEntry} (h : e'.view = e.view) (he : e.carriesD) : e'.carriesD := by
  rw [PeerEntry.carriesD, h]; exact he

theorem loadEntry_view (load : LoadIndication) (i : Nat) (e : PeerEntry) : (loadEntry load i e).1.view = e.view := by
  unfold loadEntry
  split <;> rfl

theorem silentEntry_view (timeout : Nat) (e : PeerEntry) : (silentEntry timeout e).1.view = e.view := by
  unfold silentEntry
  split <;> rfl

theorem ageEntry_view (timeout i : Nat) (e : PeerEntry) : (ageEntry timeout i e).1.view = e.view :=
  silentEntry_view timeout { e with age := upTo 65535 e.age }

/-- Work on the entries one by one that leaves their views. -/
theorem State.putEntries_keepsScale (s : State) {f : Nat → PeerEntry → PeerEntry × List Event}
    (h : ∀ i e, (f i e).1.view = e.view) : s.keepsScale (s.putEntries (takeEach f 0 s.pt.entries)) := by
  refine .of_peers (s.putEntries_outsidePeers _) fun hp => ?_
  rw [State.putEntries, State.raiseAll_pt]
  exact takeEach_forall (fun i e => PeerEntry.carriesD_of_view (h i e)) 0 hp

/-- Entries that leave the table. -/
theorem State.filterEntries_keepsScale (s : State) (keep : PeerEntry → Bool) :
    s.keepsScale { s with pt := { s.pt with entries := s.pt.entries.filter keep } } :=
  .of_peers rfl fun hp e he => hp e (List.mem_filter.1 he).1

theorem State.peerNotices_keepsScale (s : State) (before : PeerTable) : s.keepsScale (s.peerNotices before) :=
  .of_reading rfl

theorem State.peerEdge_keepsScale (s : State) (load : LoadIndication) : s.keepsScale (s.peerEdge load) :=
  (s.putEntries_keepsScale (loadEntry_view load)).trans <|
    (State.putEntries_keepsScale _ (ageEntry_view _)).trans <|
      (State.filterEntries_keepsScale _ _).trans (State.peerNotices_keepsScale _ _)

theorem State.peerSilent_keepsScale (s : State) (address : Nat) : s.keepsScale (s.peerSilent address) := by
  refine (s.putEntries_keepsScale fun i e => ?_).trans (State.peerNotices_keepsScale _ _)
  split
  · exact silentEntry_view _ e
  · rfl

theorem State.peerPurge_keepsScale (s : State) (address : Nat) : s.keepsScale (s.peerPurge address) :=
  (s.filterEntries_keepsScale _).trans (State.peerNotices_keepsScale _ _)

theorem State.takePeerTableScale_keepsScale (s : State) : s.keepsScale s.takePeerTableScale := by
  refine .of_peers s.takePeerTableScale_outsidePeers fun hp => ?_
  exact List.forall_mem_map.2 hp

theorem State.reportEntry_entries (s : State) (a p k d : Nat) : (s.reportEntry a p k d).pt.entries = s.pt.entries := by
  unfold State.reportEntry
  split <;> rfl

theorem mem_putEntry {e x : PeerEntry} {l : List PeerEntry} (h : x ∈ putEntry e l) : x = e ∨ x ∈ l := by
  induction l with
  | nil => exact .inl (List.mem_singleton.1 h)
  | cons f rest ih =>
    unfold putEntry at h
    split at h
    · exact List.mem_cons.1 h
    · split at h
      · exact (List.mem_cons.1 h).imp_right (List.mem_cons_of_mem f)
      · rcases List.mem_cons.1 h with rfl | h
        · exact .inr List.mem_cons_self
        · exact (ih h).imp_right (List.mem_cons_of_mem f)

/-- The view of a frame whose D fits a byte carries a D where it is CONFIRMED (R80). -/
theorem ReceivedFrame.view_isOffset {f : ReceivedFrame} {v : PeerView} {dropped : List (Nat × List Byte)}
    (hd : f.d ≤ 255) (h : f.view = some (v, dropped)) (hc : v.status = .confirmed) : isOffset v.d := by
  have hst : ∀ st, f.status = some st → st = .confirmed → 10 ≤ f.d := by
    rintro st h rfl
    unfold ReceivedFrame.status at h
    split at h
    · split at h <;> cases h
    · split at h
      · cases h
      · omega
  unfold ReceivedFrame.view at h
  split at h
  · rename_i st _ hs _
    simp only [Option.some.injEq, Prod.mk.injEq] at h
    obtain ⟨rfl, -⟩ := h
    exact ⟨hst st hs hc, hd⟩
  · cases h

theorem State.takeView_entries (s : State) (f : ReceivedFrame) (e : PeerEntry) :
    (s.takeView f e).2.pt.entries = s.pt.entries := by
  unfold State.takeView
  split
  · split
    · exact foldl_keeps (fun s : State => s.pt.entries) _ (fun s d => s.reportEntry_entries _ _ _ _) _ _
    · exact s.reportEntry_entries _ _ _ _
  · rfl

theorem State.takeView_carriesD (s : State) {f : ReceivedFrame} {e : PeerEntry} (hd : f.d ≤ 255) (he : e.carriesD) :
    (s.takeView f e).1.carriesD := by
  unfold State.takeView
  split
  · split
    · rename_i v dropped hv
      intro w hw hc
      obtain rfl : v = w := by simpa using hw
      exact ReceivedFrame.view_isOffset hd hv hc
    · exact he
  · exact he

/-- The entry that a frame finds, or the one made for a new sender. -/
theorem PeerTable.find_carriesD {pt : PeerTable} (h : pt.carriesD) (address : Nat) :
    ((pt.find address).getD (PeerEntry.fresh address)).carriesD := by
  cases hf : pt.find address with
  | none => exact fun v hv => nomatch hv
  | some e => exact h e (List.mem_of_find?_eq_some hf)

theorem State.takeFrame_keepsScale (s : State) {f : ReceivedFrame} (hd : f.d ≤ 255) : s.keepsScale (s.takeFrame f) := by
  refine .of_peers (s.takeFrame_outsidePeers f) fun hp => ?_
  unfold State.takeFrame
  split
  · simp only [State.peerNotices, PeerTable.carriesD, State.raiseAll_pt, State.takeView_entries]
    intro e he
    rcases mem_putEntry he with rfl | he
    · exact State.takeView_carriesD _ hd (PeerTable.find_carriesD hp f.sender)
    · split at he <;> exact hp e he
  · exact hp

/-! ## The Candidate Table -/

/-- A valid key may be applied (R12). -/
theorem Key.sound_of_valid {k : Key} {d : Option Nat} (h : k.valid d = true) : k.sound := by
  cases hk : k.kind with
  | leapInsert | leapDelete => simp only [Key.sound, hk]
  | offsetSet =>
    obtain ⟨-, hv, -⟩ := (Key.valid_offsetSet d hk).1 h
    simpa only [Key.sound, hk] using hv
  | localShift =>
    obtain ⟨⟨z, hz, h4⟩, -, v, hv, hlo, hhi, hmod⟩ := (Key.valid_localShift d hk).1 h
    simp only [Key.sound, hk]
    exact ⟨v, z, hv, hz, h4, by simp only [zoneOffsetOk, hlo, hhi, hmod, decide_true, beq_self_eq_true, Bool.and_self]⟩

/-- Records whose keys all stand in the table already. -/
theorem State.putRecords_keysSound {s : State} {rs : List Candidate} (h : s.keysSound)
    (hr : ∀ r ∈ rs, ∃ r' ∈ s.ct.records, r.key = r'.key) : (s.putRecords rs).keysSound := by
  refine ⟨fun r hm => ?_, h.2⟩
  obtain ⟨r', hm', he⟩ := hr r hm
  rw [he]
  exact h.1 r' hm'

/-- Records each reworked under its own key. -/
theorem State.mapRecords_keysSound {s : State} {f : Candidate → Candidate} (h : s.keysSound)
    (hf : ∀ r, (f r).key = r.key) : (s.putRecords (s.ct.records.map f)).keysSound :=
  State.putRecords_keysSound h fun _ hm => by
    obtain ⟨r, hr, rfl⟩ := List.mem_map.1 hm
    exact ⟨r, hr, hf r⟩

/-- The keys that a state shares with one whose keys are sound. -/
theorem State.keysSound.congr {s t : State} (h : s.keysSound) (hr : t.ct.records = s.ct.records)
    (hm : t.mail.handOver = s.mail.handOver) : t.keysSound := by
  rw [State.keysSound, hr, hm]; exact h

theorem State.raiseAll_keysSound {s : State} (h : s.keysSound) (es : List Event) : (s.raiseAll es).keysSound :=
  h.congr (by rw [State.raiseAll_ct]) (by rw [State.raiseAll_mail])

theorem State.removeRecords_keysSound {s : State} (h : s.keysSound) (gone : Candidate → Bool) (event : Key → Event) :
    (s.removeRecords gone event).keysSound :=
  State.raiseAll_keysSound (State.putRecords_keysSound h fun r hm => ⟨r, (List.mem_filter.1 hm).1, rfl⟩) _

theorem State.barAll_keysSound {s : State} (h : s.keysSound) (reason : BarReason) (keys : List (Key × Int)) :
    (s.barAll reason keys).keysSound := h

theorem State.stepEpochs_keysSound {s : State} (h : s.keysSound) : s.stepEpochs.keysSound := by
  unfold State.stepEpochs
  split
  · exact h
  · split
    · exact h
    · refine State.removeRecords_keysSound ?_ _ _
      exact ⟨List.forall_mem_map.2 h.1, h.2⟩

theorem mem_insertRecord {c x : Candidate} {l : List Candidate} (h : x ∈ insertRecord c l) : x = c ∨ x ∈ l := by
  induction l with
  | nil => exact .inl (List.mem_singleton.1 h)
  | cons r rest ih =>
    unfold insertRecord at h
    split at h
    · exact List.mem_cons.1 h
    · rcases List.mem_cons.1 h with rfl | h
      · exact .inr List.mem_cons_self
      · exact (ih h).imp_right (List.mem_cons_of_mem r)

theorem State.enter_keysSound {s : State} (h : s.keysSound) (origin : Origin) {key : Key} (hk : key.sound) :
    (s.enter origin key).keysSound := by
  refine ⟨fun r hr => ?_, h.2⟩
  rcases mem_insertRecord hr with rfl | hr
  · exact hk
  · exact h.1 r hr

theorem State.refuseKey_keysSound {s : State} (h : s.keysSound) (key : Key) : (s.refuseKey key).keysSound := by
  unfold State.refuseKey
  split <;> exact h

theorem State.admitKey_keysSound {s : State} (h : s.keysSound) (origin : Origin) {key : Key} (hk : key.sound) :
    (s.admitKey origin key).keysSound := by
  unfold State.admitKey
  split
  · exact State.enter_keysSound h origin hk
  · split
    · split
      · exact State.enter_keysSound (State.removeRecords_keysSound h _ _) origin hk
      · exact State.refuseKey_keysSound h key
    · exact State.refuseKey_keysSound h key

/-- An admissible key is valid, and so may be applied (R94). -/
theorem State.sound_of_admissible {s : State} {follow : Bool} {key : Key} (h : s.admissible follow key = true) : key.sound := by
  simp only [State.admissible, Bool.and_eq_true] at h
  exact Key.sound_of_valid h.1.2

theorem State.reportKey_keysSound {s : State} (h : s.keysSound) (key : Key) : (s.reportKey key).keysSound := by
  unfold State.reportKey
  split
  · unfold State.reportEntry
    split <;> exact h
  · exact h

theorem State.considerKey_keysSound {s : State} (key : Key) (h : s.keysSound) : (s.considerKey key).keysSound := by
  unfold State.considerKey
  split
  · exact h
  · split
    · exact State.reportKey_keysSound h key
    · split
      · rename_i ha
        exact State.admitKey_keysSound h _ (State.sound_of_admissible ha)
      · exact h

/-- Work done key by key keeps the keys sound where the work for each key does. -/
theorem foldl_keysSound {f : State → Key → State} (hf : ∀ {s : State} (key : Key), s.keysSound → (f s key).keysSound)
    (l : List Key) {s : State} (h : s.keysSound) : (l.foldl f s).keysSound := by
  induction l generalizing s with
  | nil => exact h
  | cons key l ih => exact ih (hf key h)

theorem State.stepDemotion_keysSound {s : State} (h : s.keysSound) : s.stepDemotion.keysSound := by
  unfold State.stepDemotion
  refine State.raiseAll_keysSound ?_ _
  refine ⟨takeEach_forall (P := fun r : Candidate => r.key.sound) (fun _ r hr => ?_) 0 h.1, h.2⟩
  split <;> exact hr

theorem State.settle_keysSound {s : State} (h : s.keysSound) (by_ : ArmedBy) (toArm : Candidate → Bool)
    (first : Candidate → List Event) : (s.settle by_ toArm first).keysSound := by
  unfold State.settle
  refine State.raiseAll_keysSound ?_ _
  refine ⟨(State.putRecords_keysSound h fun r hm => ?_).1, h.2⟩
  obtain ⟨c, hc, hs⟩ := List.mem_filterMap.1 hm
  refine ⟨c, hc, ?_⟩
  unfold Candidate.settled at hs
  split at hs <;> cases hs <;> rfl

theorem State.stepBarred_keysSound {s : State} (h : s.keysSound) : s.stepBarred.keysSound := h

theorem State.stepExpiry_keysSound {s : State} (h : s.keysSound) : s.stepExpiry.keysSound :=
  State.removeRecords_keysSound h _ _

theorem State.stepAdmission_keysSound {s : State} (h : s.keysSound) : s.stepAdmission.keysSound :=
  foldl_keysSound State.considerKey_keysSound _ h

theorem State.stepTallies_keysSound {s : State} (h : s.keysSound) : s.stepTallies.keysSound :=
  State.mapRecords_keysSound h fun _ => rfl

theorem State.stepWithdrawal_keysSound {s : State} (h : s.keysSound) : s.stepWithdrawal.keysSound :=
  State.removeRecords_keysSound h _ _

theorem State.passOpening_keysSound {s : State} (h : s.keysSound) : s.passOpening.keysSound := by
  have he := State.stepExpiry_keysSound (State.stepBarred_keysSound (State.stepEpochs_keysSound h))
  exact State.stepDemotion_keysSound
    (State.stepWithdrawal_keysSound (State.stepTallies_keysSound (State.stepAdmission_keysSound he)))

theorem State.armByFollow_keysSound {s : State} (h : s.keysSound) (key : Key) : (s.armByFollow key).keysSound := by
  have hm : (s.putRecords
      (s.ct.records.map (fun r => if r.key = key then { r with state := .armed, armedBy := some .follow } else r))).keysSound :=
    State.mapRecords_keysSound h fun r => by split <;> rfl
  refine State.barAll_keysSound (State.removeRecords_keysSound ?_ _ _) _ _
  exact hm

theorem State.followHeld_keysSound {s : State} (key : Key) (h : s.keysSound) : (s.followHeld key).keysSound := by
  unfold State.followHeld
  split
  · split
    · exact State.armByFollow_keysSound h key
    · exact h
  · exact h

theorem State.followAbsent_keysSound {s : State} (key : Key) (h : s.keysSound) : (s.followAbsent key).keysSound := by
  unfold State.followAbsent
  split
  · rename_i hc
    simp only [Bool.and_eq_true] at hc
    have ha := State.admitKey_keysSound h .follow (State.sound_of_admissible hc.1.2)
    dsimp only
    split
    · refine State.armByFollow_keysSound ?_ key
      exact State.mapRecords_keysSound (f := fun r => if r.key = key then (s.admitKey .follow key).formRecord r else r) ha
        fun r => by split <;> rfl
    · exact ha
  · exact h

theorem State.passArming_keysSound {s : State} (h : s.keysSound) (edge : Bool) : (s.passArming edge).keysSound := by
  have ha : (if edge then s.stepArm else s).keysSound := by
    split
    · exact State.settle_keysSound h _ _ _
    · exact h
  exact foldl_keysSound State.followAbsent_keysSound _ (foldl_keysSound State.followHeld_keysSound _ ha)

theorem State.stepAcceptance_keysSound {s : State} (h : s.keysSound) : s.stepAcceptance.keysSound :=
  State.settle_keysSound (State.mapRecords_keysSound h fun r => by split <;> rfl) _ _ _

/-- The records that are due leave the table for the hand-over (R111). -/
theorem State.dueRecords_sound {s : State} (h : s.keysSound) : ∀ r ∈ s.dueRecords, r.key.sound := by
  intro r hr
  rcases List.mem_append.1 hr with hr | hr <;> exact h.1 r (List.mem_filter.1 hr).1

theorem State.stepDue_keysSound {s : State} (h : s.keysSound) (load : LoadIndication) : (s.stepDue load).keysSound := by
  refine ⟨fun r hr => h.1 r (List.mem_filter.1 hr).1, fun given hg => ?_⟩
  rcases List.mem_append.1 hg with hg | hg
  · exact h.2 given hg
  · obtain rfl := List.mem_singleton.1 hg
    exact List.forall_mem_map.2 (State.dueRecords_sound h)

theorem State.compareView_keysSound {s : State} (h : s.keysSound) : s.compareView.keysSound := by
  unfold State.compareView
  split <;> exact h

theorem State.giveArming_keysSound {s : State} (h : s.keysSound) (armed : List ArmedLeap) : (s.giveArming armed).keysSound := by
  unfold State.giveArming
  split <;> exact h

theorem State.giveCandidate_keysSound {s : State} (h : s.keysSound) (n : CandidateNotice) : (s.giveCandidate n).keysSound := by
  unfold State.giveCandidate
  split <;> exact h

theorem State.pass_keysSound {s : State} (h : s.keysSound) (edge : Option LoadIndication) : (s.pass edge).keysSound := by
  have ha := State.stepAcceptance_keysSound (State.passArming_keysSound (State.passOpening_keysSound h) edge.isSome)
  refine State.giveCandidate_keysSound (State.giveArming_keysSound (State.compareView_keysSound ?_) _) _
  cases edge with
  | none => exact ha
  | some load => exact State.stepDue_keysSound ha load

theorem State.pass_keepsScale (s : State) (edge : Option LoadIndication) : s.keepsScale (s.pass edge) :=
  .of_table (s.pass_outsideTable edge) fun h => State.pass_keysSound h edge

theorem State.takeReport_keepsScale (s : State) : s.keepsScale s.takeReport := by
  unfold State.takeReport
  split
  · exact .refl s
  · exact (State.pass_keepsScale _ none).after rfl

theorem State.takeOperator_keepsScale (s : State) : s.keepsScale s.takeOperator := by
  unfold State.takeOperator
  split
  · exact .refl s
  · exact (State.pass_keepsScale _ none).after rfl

theorem State.takePeer_keepsScale (s : State) : s.keepsScale s.takePeer := by
  unfold State.takePeer
  split
  · exact .refl s
  · exact (State.pass_keepsScale _ none).after rfl

theorem State.takeTimeBase_keepsScale (s : State) : s.keepsScale s.takeTimeBase := by
  unfold State.takeTimeBase
  split
  · exact .refl s
  · exact (State.pass_keepsScale _ none).after rfl

theorem State.noteReading_keepsScale (s : State) : s.keepsScale s.noteReading := .of_reading rfl

theorem State.respond_keepsScale (s : State) (status : Status) (body : List Byte) : s.keepsScale (s.respond status body) :=
  .of_reading rfl

theorem State.takeCandidateScale_keepsScale (s : State) : s.keepsScale s.takeCandidateScale := by
  unfold State.takeCandidateScale
  split
  · exact .refl s
  · rename_i n rest _
    have hp : s.keepsScale (({ s with mail := { s.mail with candidateScale := rest } } : State).pass none) :=
      (State.pass_keepsScale _ none).after rfl
    dsimp only
    split
    · exact hp.trans (State.noteReading_keepsScale _)
    · exact hp

theorem State.replaceOperator_keepsScale (s : State) (items : List OperatorItem) :
    s.keepsScale (s.replaceOperator items) := by
  have hp : s.keepsScale (({ s with si := { s.si with operator := items } } : State).pass none) :=
    (State.pass_keepsScale _ none).after rfl
  exact hp.trans (State.respond_keepsScale _ _ _)

/-- SET_OPERATOR_ENTRY moves the entry, and the table by its pass (R54). -/
theorem State.setOperatorEntry_keepsScale (s : State) (payload : List Byte) : s.keepsScale (s.setOperatorEntry payload) := by
  unfold State.setOperatorEntry
  split
  · exact .of_reading rfl
  · split
    · exact .of_reading rfl
    · split
      · exact .of_reading rfl
      · exact .of_reading rfl
      · split
        · exact s.replaceOperator_keepsScale _
        · exact .of_reading rfl

end Sys2Proof.Machine
end

section
/-! Every command but those that move the scale keeps its law, D and the scale status (R2). -/

namespace Sys2Proof.Machine

/-! ## The Scale Bus Interface -/

theorem State.takeViewNotice_keepsScale (s : State) : s.keepsScale s.takeViewNotice := by
  unfold State.takeViewNotice
  split
  · exact .refl s
  · exact (State.keepsScale.of_bus (State.viewNotice_outsideBus _)).after rfl

theorem State.takeArmingNotice_keepsScale (s : State) : s.keepsScale s.takeArmingNotice := by
  unfold State.takeArmingNotice
  split
  · exact .refl s
  · exact (State.keepsScale.of_bus (State.armingNotice_outsideBus _)).after rfl

theorem State.takeTableNotices_keepsScale (s : State) : s.keepsScale s.takeTableNotices :=
  (times_keepsScale State.takeViewNotice_keepsScale _ s).trans (times_keepsScale State.takeArmingNotice_keepsScale _ _)

theorem State.putBus_keepsScale (s : State) (b : ScaleBus) : s.keepsScale (s.putBus b) := .of_reading rfl

theorem State.frameStart_keepsScale (s : State) : s.keepsScale s.frameStart := by
  unfold State.frameStart
  split
  · exact s.putBus_keepsScale _
  · exact .refl s

theorem State.quietInstant_keepsScale (s : State) : s.keepsScale s.quietInstant := by
  unfold State.quietInstant
  split
  · exact .refl s
  · exact s.putBus_keepsScale _

theorem State.cadenceDue_keepsScale (s : State) : s.keepsScale s.cadenceDue := by
  unfold State.cadenceDue
  split
  · exact s.putBus_keepsScale _
  · exact .refl s

theorem State.courtesyEnd_keepsScale (s : State) (quiet : Nat) : s.keepsScale (s.courtesyEnd quiet) := by
  unfold State.courtesyEnd
  split
  · split
    · exact s.putBus_keepsScale _
    · exact .refl s
  · exact .refl s

/-- The D of a frame that passes the checks is a byte (R63, R65). -/
theorem receiveFrame_d_le {bytes : List Byte} {oddBits : Nat} {f : ReceivedFrame}
    (h : receiveFrame bytes oddBits = some f) : f.d ≤ 255 := by
  unfold receiveFrame at h
  dsimp only at h
  split at h
  · obtain ⟨cause, -, rfl⟩ := Option.map_eq_some_iff.1 h
    exact Nat.le_of_lt_succ (bytes.getD 12 0).isLt
  · cases h

theorem State.hearPeer_keepsScale (s : State) {f : ReceivedFrame} (hd : f.d ≤ 255) : s.keepsScale (s.hearPeer f) :=
  (s.putBus_keepsScale _).trans (State.takeFrame_keepsScale _ hd)

theorem State.hearOwn_keepsScale (s : State) (address : Nat) : s.keepsScale (s.hearOwn address) := by
  unfold State.hearOwn
  split
  · exact .of_bus (s.mute_outsideBus _ _)
  · exact .refl s

theorem State.hear_keepsScale (s : State) {f : ReceivedFrame} (hd : f.d ≤ 255) : s.keepsScale (s.hear f) := by
  unfold State.hear
  split
  · split
    · exact s.hearOwn_keepsScale _
    · exact s.hearPeer_keepsScale hd
  · exact s.hearPeer_keepsScale hd

theorem State.receive_keepsScale (s : State) (bytes : List Byte) (oddBits : Nat) : s.keepsScale (s.receive bytes oddBits) := by
  unfold State.receive
  split
  · exact .refl s
  · have hq := s.putBus_keepsScale { s.sbi with pair := .quiet, ended := .noFrame }
    dsimp only
    split
    · exact hq
    · split
      · exact hq.trans (.of_bus (State.discardFrame_outsideBus _))
      · rename_i hf
        exact hq.trans (State.hear_keepsScale _ (receiveFrame_d_le hf))

/-! ## The second edge -/

theorem State.takeOffers_keepsScale (s : State) : s.keepsScale s.takeOffers :=
  (times_keepsScale State.takeReport_keepsScale _ s).trans <|
    (times_keepsScale State.takeOperator_keepsScale _ _).trans (times_keepsScale State.takePeer_keepsScale _ _)

theorem edgeBlock_keepsScale (load : LoadIndication) (r : State × Bool) (block : EdgeBlock) :
    r.1.keepsScale (edgeBlock load r block).1 := by
  cases block with
  | sources => exact r.1.sourceEdge_keepsScale
  | peers => exact r.1.peerEdge_keepsScale load
  | bus => exact r.1.takeTableNotices_keepsScale.trans (.of_bus (State.busEdge_outsideBus _ r.2))
  | candidates => exact r.1.takeOffers_keepsScale.trans (State.pass_keepsScale _ (some load))

theorem foldl_edgeBlock_keepsScale (load : LoadIndication) (order : List EdgeBlock) (r : State × Bool) :
    r.1.keepsScale (order.foldl (edgeBlock load) r).1 := by
  induction order generalizing r with
  | nil => exact .refl r.1
  | cons block order ih => exact (edgeBlock_keepsScale load r block).trans (ih _)

theorem State.handEdge_keepsScale (s : State) (load : LoadIndication) (order : List EdgeBlock) :
    s.keepsScale (s.handEdge load order) :=
  foldl_edgeBlock_keepsScale load order (s, false)

/-- An edge keeps the law and leaves D and the status, in whatever order the blocks take it (R2). -/
theorem State.edge_keepsScale (s : State) (tick : Nat) (events : List Event) : s.keepsScale (s.edge tick events) := by
  unfold State.edge State.edgeIn
  dsimp only
  refine State.keepsScale.trans ?_ (State.handEdge_keepsScale _ _ _)
  exact (State.raiseAll_keepsScale _ _).after rfl

/-! ## The Time Base -/

theorem State.putTime_keepsScale (s : State) (b : TimeBase) : s.keepsScale (s.putTime b) := .of_reading rfl

theorem State.turn_keepsScale (s : State) (b : TimeBase) : s.keepsScale (s.turn b) := by
  unfold State.turn
  split <;> exact .of_reading rfl

theorem State.runt_keepsScale (s : State) : s.keepsScale s.runt := by
  unfold State.runt
  dsimp only
  split <;> exact .of_reading rfl

theorem State.lockAt_keepsScale (s : State) (issue : Bool) (stamp : Nat) (events : List Event) (b : TimeBase) :
    s.keepsScale (s.lockAt issue stamp events b) := by
  unfold State.lockAt
  split
  · exact (s.putTime_keepsScale b).trans (State.edge_keepsScale _ _ _)
  · exact (s.turn_keepsScale b).trans (State.raiseAll_keepsScale _ _)

theorem State.flywheelHit_keepsScale (s : State) (stamp : Nat) : s.keepsScale (s.flywheelHit stamp) := by
  unfold State.flywheelHit
  split
  · exact s.runt_keepsScale
  · dsimp only
    split
    · exact (s.putTime_keepsScale _).trans (State.lockAt_keepsScale _ _ _ _ _)
    · exact s.putTime_keepsScale _

theorem State.stray_keepsScale (s : State) (stamp : Nat) : s.keepsScale (s.stray stamp) := by
  have hc (b : TimeBase) : s.keepsScale (s.runt.putTime b) := s.runt_keepsScale.trans (State.putTime_keepsScale _ b)
  unfold State.stray
  dsimp only
  split
  · split
    · exact (hc _).trans (State.lockAt_keepsScale _ _ _ _ _)
    · exact hc _
  · split
    · exact (hc _).trans (State.lockAt_keepsScale _ _ _ _ _)
    · exact hc _

theorem State.untimedPulse_keepsScale (s : State) (stamp : Nat) : s.keepsScale (s.untimedPulse stamp) := by
  unfold State.untimedPulse
  split
  · split
    · exact (s.putTime_keepsScale _).trans (State.edge_keepsScale _ _ _)
    · exact s.edge_keepsScale _ _
  · exact s.runt_keepsScale

theorem State.pulse_keepsScale (s : State) (stamp : Nat) : s.keepsScale (s.pulse stamp) := by
  have hl : s.keepsScale (if s.tb.inWindow stamp then
      (s.putTime { s.tb with pulseState := .locked, nominal := some stamp, tolerance := s.tolerance, missedRun := 0 }).edge
        stamp []
      else s.runt) := by
    split
    · exact (s.putTime_keepsScale _).trans (State.edge_keepsScale _ _ _)
    · exact s.runt_keepsScale
  unfold State.pulse
  split
  · split
    · exact (s.putTime_keepsScale _).trans (State.edge_keepsScale _ _ _)
    · exact .refl s
  · exact hl
  · exact hl
  · split
    · exact s.flywheelHit_keepsScale stamp
    · exact s.stray_keepsScale stamp
  · exact s.untimedPulse_keepsScale stamp

theorem State.flywheelEdge_keepsScale (s : State) : s.keepsScale s.flywheelEdge := by
  unfold State.flywheelEdge
  split
  · exact s.edge_keepsScale _ _
  · exact .refl s

theorem State.missWindow_keepsScale (s : State) : s.keepsScale s.missWindow := by
  unfold State.missWindow
  dsimp only
  split <;> exact (State.edge_keepsScale _ _ _).after rfl

theorem State.windowClose_keepsScale (s : State) : s.keepsScale s.windowClose := by
  unfold State.windowClose
  split
  · exact s.missWindow_keepsScale
  · exact s.missWindow_keepsScale
  · exact s.flywheelEdge_keepsScale.trans ((State.putTime_keepsScale _ _).trans (State.putTime_keepsScale _ _))
  · exact .refl s
  · exact .refl s

theorem State.clockLost_keepsScale (s : State) : s.keepsScale s.clockLost := by
  unfold State.clockLost
  split
  · exact (s.turn_keepsScale _).trans (.of_events (State.raise_sansEvents _ _))
  · exact s.putTime_keepsScale _
  · exact .of_reading rfl

theorem State.clockCycles_keepsScale (s : State) (cycles : Nat) : s.keepsScale (s.clockCycles cycles) := by
  unfold State.clockCycles
  split
  · dsimp only
    split <;> exact .of_reading rfl
  · exact .refl s

theorem State.loadTime_keepsScale (s : State) (value : Nat) : s.keepsScale (s.loadTime value) := by
  unfold State.loadTime
  split <;> exact .of_reading rfl

/-! ## The lanes -/

theorem State.passesDone_keepsScale (s : State) : s.keepsScale s.passesDone := by
  refine foldl_keepsScale (fun s _ => ?_) _ s
  split
  · exact s.takeCandidateScale_keepsScale
  · exact .refl s

theorem State.secondNotice_keepsScale (s : State) (n : SecondNotice) : s.keepsScale (s.secondNotice n) := by
  unfold State.secondNotice
  split
  · dsimp only
    split
    · exact s.passesDone_keepsScale.trans (.of_reading rfl)
    · exact .of_reading rfl
  · exact .refl s

theorem State.takeSecond_keepsScale (s : State) : s.keepsScale s.takeSecond := by
  unfold State.takeSecond
  split
  · exact .refl s
  · exact (State.secondNotice_keepsScale _ _).after rfl

theorem State.takeLaneArming_keepsScale (s : State) : s.keepsScale s.takeLaneArming := by
  unfold State.takeLaneArming State.laneArming
  split
  · exact .refl s
  · split <;> exact .of_reading rfl

theorem State.readStamp_keepsScale (s : State) (lane : Nat) : s.keepsScale (s.readStamp lane) := by
  unfold State.readStamp
  split <;> exact .of_reading rfl

/-! ## The Control Port -/

theorem State.beginTransaction_keepsScale (s : State) (select : Byte) : s.keepsScale (s.beginTransaction select) := by
  unfold State.beginTransaction
  split <;> exact .of_reading rfl

theorem State.beginReset_keepsScale (s : State) (cause : ResetCause) : s.keepsScale (s.beginReset cause) := .of_reading rfl

theorem State.endTransaction_keepsScale (s : State) : s.keepsScale s.endTransaction := by
  unfold State.endTransaction
  split
  · exact .refl s
  · split
    · exact s.beginReset_keepsScale .command
    · exact .of_reading rfl

theorem State.pinReset_keepsScale (s : State) : s.keepsScale s.pinReset := by
  unfold State.pinReset
  split
  · exact s.beginReset_keepsScale .pin
  · exact .refl s

theorem State.readEvent_keepsScale (s : State) : s.keepsScale s.readEvent := by
  unfold State.readEvent
  split <;> exact .of_reading rfl

/-- Every initial zone offset has its check. -/
theorem zoneChecks_complete {u : Int} {us : List Int} (h : u ∈ us) (i : Nat) :
    ∃ j, (j, decide (-48 ≤ u) && decide (u ≤ 56)) ∈ zoneChecks i us := by
  induction us generalizing i with
  | nil => cases h
  | cons v rest ih =>
    rcases List.mem_cons.1 h with rfl | h
    · exact ⟨i, List.mem_cons_self⟩
    · obtain ⟨j, hj⟩ := ih h (i + 1)
      exact ⟨j, List.mem_cons_of_mem _ hj⟩

/-- The zone offsets of a commission record that passes are lawful (R121, R173). -/
theorem CommissionRequest.zoneOffsetOk_of_failure_none {r : CommissionRequest} (h : r.failure = none) :
    ∀ u ∈ r.zoneUnits, zoneOffsetOk (15 * u) = true := by
  intro u hu
  obtain ⟨j, hj⟩ := zoneChecks_complete hu 45
  have hall := List.find?_eq_none.1 (Option.map_eq_none_iff.1 h) _ (List.mem_append_right _ hj)
  simp only [Bool.not_eq_true, Bool.not_eq_false', Bool.and_eq_true, decide_eq_true_eq] at hall
  simp only [zoneOffsetOk, Bool.and_eq_true, decide_eq_true_eq, beq_iff_eq]
  omega

/-- New lawful zones leave the rest of the law of the scale. -/
theorem ScaleState.lawful.withZones {ss : ScaleState} (h : ss.lawful) {zones : List Int} (hl : zones.length = 4)
    (hz : ∀ z ∈ zones, zoneOffsetOk z = true) : { ss with zones := zones }.lawful :=
  ⟨h.offset, ⟨hl, hz⟩, h.tallied, h.yieldsTo⟩

theorem State.acceptCommission_keepsScale (s : State) {r : CommissionRequest} (hf : r.failure = none)
    (hn : r.zoneUnits.length = 4) : s.keepsScale (s.acceptCommission r) := by
  refine ⟨fun h => ?_, rfl, rfl⟩
  obtain ⟨hsi, hpt, hss, hk⟩ := s.scaleLaw_iff.1 h
  refine (State.scaleLaw_iff _).2 ⟨hsi, hpt, hss.withZones ?_ ?_, hk⟩
  · split
    · exact hss.zoneLength
    · rw [List.length_map, hn]
  · split
    · exact hss.zoneOk
    · exact List.forall_mem_map.2 (CommissionRequest.zoneOffsetOk_of_failure_none hf)

theorem State.commission_keepsScale (s : State) (payload : List Byte) :
    s.keepsScale (s.commission (readCommission payload)) := by
  unfold State.commission
  split
  · exact .of_reading rfl
  · split
    · exact .of_reading rfl
    · split
      · exact .of_reading rfl
      · rename_i hf
        exact s.acceptCommission_keepsScale hf rfl

/-- A command taken keeps the scale where what it does keeps it. -/
theorem State.takeCommand_keepsScale (s : State) (code : Nat) (payload : List Byte) {act : State → State}
    (h : ∀ u : State, u.keepsScale (act u)) : s.keepsScale (s.takeCommand code payload act) := by
  unfold State.takeCommand
  split
  · exact .refl s
  · exact (h _).after rfl

/-- A command whose form is tested first. -/
theorem State.formed_keepsScale (s : State) {u : State} {p : Prop} [Decidable p] (h : s.keepsScale u) :
    s.keepsScale (if p then u else s.respond .malformed []) := by
  split
  · exact h
  · exact s.respond_keepsScale _ _

/-- Work that is done unless a reset holds. -/
theorem State.unlessHeld_keepsScale (s : State) {u : State} (h : s.keepsScale u) :
    s.keepsScale (if s.held then s else u) := by
  split
  · exact .refl s
  · exact h

/-! ## The scale tally -/

/-- The D of a scale peer is a value of D (R84, R120). -/
theorem PeerTable.scaleOffer_isOffset {pt : PeerTable} (h : pt.carriesD) : ∀ x ∈ pt.scaleOffer, isOffset x.2 := by
  rw [PeerTable.scaleOffer_eq]
  intro x hx
  obtain ⟨e, he, hx⟩ := List.mem_filterMap.1 hx
  split at hx
  · rename_i v hv
    split at hx
    · rename_i hc
      obtain rfl := Option.some.inj hx
      exact h e he v hv hc.2.2
    · cases hx
  · cases hx

/-- The D that the sources offer are values of D (R45, R120). -/
theorem SourceIntake.offeredDs_isOffset {si : SourceIntake} (h : si.reportsD) :
    ∀ v ∈ si.offeredDs.filterMap id, isOffset v := by
  intro v hv
  obtain ⟨x, hx, hv⟩ := List.mem_filterMap.1 hv
  obtain ⟨r, hr, rfl⟩ := List.mem_map.1 hx
  unfold SourceRecord.offeredD at hv
  split at hv
  · obtain ⟨o, ho, rfl⟩ := Option.map_eq_some_iff.1 hv
    exact (h r hr).2 o ho
  · cases hv

/-- Every value that some station stands for is a value of D (R129). -/
theorem State.stands_isOffset {s : State} (hsi : s.si.reportsD) (hpt : s.pt.carriesD) : ∀ v ∈ s.stands, isOffset v := by
  intro v hv
  rcases List.mem_append.1 hv with hv | hv
  · exact SourceIntake.offeredDs_isOffset hsi v (List.mem_of_find?_eq_some (Option.mem_toList.1 hv))
  · exact List.forall_mem_map.2 (PeerTable.scaleOffer_isOffset hpt) v hv

theorem State.formTally_keepsScale (s : State) : s.keepsScale s.formTally := by
  refine ⟨fun h => ?_, rfl, rfl⟩
  obtain ⟨hsi, hpt, ⟨ho, hz, -, hy⟩, hk⟩ := s.scaleLaw_iff.1 h
  refine (State.scaleLaw_iff _).2 ⟨hsi, hpt, ⟨ho, hz, ?_, hy⟩, hk⟩
  exact List.forall_mem_map.2 fun v hv => State.stands_isOffset hsi hpt v (List.mem_eraseDups.1 hv)

/-! ## Every command but the four that move the scale -/

/-- Whatever next state the outcome names, the scale is kept. -/
def State.keepsScaleIn (s : State) (o : Host.Outcome State Fault Refusal) : Prop := ∀ t, o = .next t → s.keepsScale t

theorem State.keepsScale.next {s t : State} (h : s.keepsScale t) : s.keepsScaleIn (.next t) := by
  rintro _ ⟨⟩
  exact h

theorem State.storeStep_keepsScale (s : State) {act : State → State} (h : (act s).outsideStore = s.outsideStore) :
    s.keepsScaleIn (s.storeStep act) := by
  unfold State.storeStep
  split
  · exact (State.keepsScale.refl s).next
  · split
    · exact fun t ht => nomatch ht
    · exact (State.keepsScale.of_store h).next

theorem execAppliedChangeNotice_keepsScale (s : State) : s.keepsScaleIn (execAppliedChangeNotice s) := by
  refine (s.unlessHeld_keepsScale ?_).next
  split
  · exact .refl s
  · exact (State.takeAppliedChange_keepsScale _ _ _).after rfl

theorem execSourceScaleNotice_keepsScale (s : State) : s.keepsScaleIn (execSourceScaleNotice s) := by
  refine (s.unlessHeld_keepsScale ?_).next
  split
  · exact .refl s
  · exact (State.sourceSweep_keepsScale _ _).after rfl

theorem execCandidateNotice_keepsScale (s : State) : s.keepsScaleIn (execCandidateNotice s) := by
  refine (s.unlessHeld_keepsScale ?_).next
  split
  · exact .refl s
  · exact (State.takeCandidateNotice_keepsScale _ _).after rfl

theorem execPeerTableScaleNotice_keepsScale (s : State) : s.keepsScaleIn (execPeerTableScaleNotice s) := by
  refine (s.unlessHeld_keepsScale ?_).next
  split
  · exact .refl s
  · exact (State.takePeerTableScale_keepsScale _).after rfl

theorem execReadHistory_keepsScale (payload : List Byte) (s : State) : s.keepsScaleIn (execReadHistory payload s) := by
  refine (s.takeCommand_keepsScale _ _ fun u => ?_).next
  repeat' split
  all_goals exact u.respond_keepsScale _ _

theorem execPrepareExtraction_keepsScale (payload : List Byte) (s : State) :
    s.keepsScaleIn (execPrepareExtraction payload s) := by
  refine (s.takeCommand_keepsScale _ _ fun u => u.formed_keepsScale ?_).next
  exact (State.keepsScale.of_store u.prepareExtraction_outsideStore).trans (State.respond_keepsScale _ _ _)

theorem execResetCommand_keepsScale (payload : List Byte) (s : State) : s.keepsScaleIn (execResetCommand payload s) := by
  refine (s.takeCommand_keepsScale _ _ fun u => u.formed_keepsScale ?_).next
  exact .of_reading rfl

theorem execSourceNotice_keepsScale (s : State) : s.keepsScaleIn (execSourceNotice s) := by
  refine State.keepsScale.next ?_
  split
  · exact .refl s
  · exact (State.formTally_keepsScale _).after rfl

theorem execPeerScaleNotice_keepsScale (s : State) : s.keepsScaleIn (execPeerScaleNotice s) := by
  refine State.keepsScale.next ?_
  split
  · exact .refl s
  · exact (State.formTally_keepsScale _).after rfl

theorem execFrameStartHeard_keepsScale (s : State) : s.keepsScaleIn (execFrameStartHeard s) := by
  refine State.keepsScale.next ?_
  split
  · exact .refl s
  · exact s.frameStart_keepsScale

/-- Only the work of an edge, a yield, the end of the scan and a reset move D or the status (R2). -/
theorem exec_keepsScale {c : Instr} (s : State) (hh : c ≠ .handOver) (hy : c ≠ .scaleYielded) (hs : c ≠ .scanEnd)
    (hr : c ≠ .resetEnd) : s.keepsScaleIn (exec c s) := by
  cases c with
  | transactionBegin select => exact (s.beginTransaction_keepsScale select).next
  | transactionEnd => exact s.endTransaction_keepsScale.next
  | commission p => exact (s.takeCommand_keepsScale _ _ fun u => u.formed_keepsScale (u.commission_keepsScale p)).next
  | loadTime p => exact (s.takeCommand_keepsScale _ _ fun u => u.formed_keepsScale (u.loadTime_keepsScale _)).next
  | observe p => exact (s.takeCommand_keepsScale _ _ fun u => u.formed_keepsScale (u.observe_keepsScale _)).next
  | setOperatorEntry p =>
    exact (s.takeCommand_keepsScale _ _ fun u => u.formed_keepsScale (u.setOperatorEntry_keepsScale p)).next
  | readStatus p => exact (s.takeCommand_keepsScale _ _ fun u => u.formed_keepsScale (u.respond_keepsScale _ _)).next
  | readSources p => exact (s.takeCommand_keepsScale _ _ fun u => u.formed_keepsScale (u.respond_keepsScale _ _)).next
  | readPeers p => exact (s.takeCommand_keepsScale _ _ fun u => u.formed_keepsScale (u.respond_keepsScale _ _)).next
  | readCandidates p => exact (s.takeCommand_keepsScale _ _ fun u => u.formed_keepsScale (u.respond_keepsScale _ _)).next
  | readStamp p => exact (s.takeCommand_keepsScale _ _ fun u => u.formed_keepsScale (u.readStamp_keepsScale _)).next
  | readHistory p => exact execReadHistory_keepsScale p s
  | readEvent p => exact (s.takeCommand_keepsScale _ _ fun u => u.formed_keepsScale u.readEvent_keepsScale).next
  | eventResponseComplete =>
    exact (s.unlessHeld_keepsScale (u := { s with cp := s.cp.eventDone }) (.of_reading rfl)).next
  | prepareExtraction p => exact execPrepareExtraction_keepsScale p s
  | resetCommand p => exact execResetCommand_keepsScale p s
  | unknownCommand code p => exact (s.takeCommand_keepsScale _ _ fun u => u.respond_keepsScale _ _).next
  | powerOnReset => exact (State.keepsScale.of_reading (t := s.powerOn) rfl).next
  | pinReset => exact s.pinReset_keepsScale.next
  | resetEnd => exact absurd rfl hr
  | ppsPulse stamp => exact (s.unlessHeld_keepsScale (s.pulse_keepsScale stamp)).next
  | windowClose => exact (s.unlessHeld_keepsScale s.windowClose_keepsScale).next
  | flywheelEdge => exact (s.unlessHeld_keepsScale s.flywheelEdge_keepsScale).next
  | refclkLost => exact (s.unlessHeld_keepsScale s.clockLost_keepsScale).next
  | refclkRestored cycles => exact (s.unlessHeld_keepsScale (s.clockCycles_keepsScale cycles)).next
  | sourceStale source => exact (s.unlessHeld_keepsScale (s.sourceStale_keepsScale source)).next
  | appliedChangeNotice => exact execAppliedChangeNotice_keepsScale s
  | graceExpiry => exact (s.unlessHeld_keepsScale s.graceExpiry_keepsScale).next
  | sourceScaleNotice => exact execSourceScaleNotice_keepsScale s
  | candidateNotice => exact execCandidateNotice_keepsScale s
  | peerSilent address => exact (s.unlessHeld_keepsScale (s.peerSilent_keepsScale address)).next
  | peerPurge address => exact (s.unlessHeld_keepsScale (s.peerPurge_keepsScale address)).next
  | peerTableScaleNotice => exact execPeerTableScaleNotice_keepsScale s
  | frameStartHeard => exact execFrameStartHeard_keepsScale s
  | busQuietInstant => exact s.quietInstant_keepsScale.next
  | transmitStart waited => exact (s.unlessHeld_keepsScale (.of_bus (s.transmitStart_outsideBus waited))).next
  | frameCompleted others => exact (s.unlessHeld_keepsScale (.of_bus (s.frameCompleted_outsideBus others))).next
  | readBackMismatch others => exact (s.unlessHeld_keepsScale (.of_bus (s.readBackMismatch_outsideBus others))).next
  | frameReceived bytes oddBits => exact (s.receive_keepsScale bytes oddBits).next
  | courtesySpanEnd quiet => exact (s.unlessHeld_keepsScale (s.courtesyEnd_keepsScale quiet)).next
  | listenSpanComplete => exact (s.unlessHeld_keepsScale (.of_bus s.listenSpanComplete_outsideBus)).next
  | cadencePeriodDue => exact (s.unlessHeld_keepsScale s.cadenceDue_keepsScale).next
  | viewNotice => exact (s.unlessHeld_keepsScale s.takeViewNotice_keepsScale).next
  | armingNotice => exact (s.unlessHeld_keepsScale s.takeArmingNotice_keepsScale).next
  | reportNotice => exact (s.unlessHeld_keepsScale s.takeReport_keepsScale).next
  | operatorNotice => exact (s.unlessHeld_keepsScale s.takeOperator_keepsScale).next
  | peerNotice => exact (s.unlessHeld_keepsScale s.takePeer_keepsScale).next
  | candidateScaleNotice => exact (s.unlessHeld_keepsScale s.takeCandidateScale_keepsScale).next
  | timeBaseNotice => exact (s.unlessHeld_keepsScale s.takeTimeBase_keepsScale).next
  | handOver => exact absurd rfl hh
  | scaleYielded => exact absurd rfl hy
  | sourceNotice => exact execSourceNotice_keepsScale s
  | peerScaleNotice => exact execPeerScaleNotice_keepsScale s
  | secondNotice => exact (s.unlessHeld_keepsScale s.takeSecond_keepsScale).next
  | laneArmingNotice => exact (s.unlessHeld_keepsScale s.takeLaneArming_keepsScale).next
  | stampStreamDone =>
    exact (s.unlessHeld_keepsScale (u := { s with ls := { s.ls with stream := .idle, sent := 0 } }) (.of_reading rfl)).next
  | scanEnd => exact absurd rfl hs
  | programComplete readBack => exact s.storeStep_keepsScale (s.programComplete_outsideStore readBack)
  | voidComplete => exact s.storeStep_keepsScale s.voidComplete_outsideStore
  | eraseComplete readBack => exact s.storeStep_keepsScale (s.eraseComplete_outsideStore readBack)
  | powerFailure => exact (State.keepsScale.of_reading (t := s.powerFail) rfl).next

end Sys2Proof.Machine
end

section
/-! The work of an edge, a yield, the end of the scan and a reset keep the law of the scale. -/

namespace Sys2Proof.Machine

/-! ## The work of an edge on the scale (R123 to R132) -/

/-- A state of the scale that holds a D, with the zones, the tally and the yield value of a lawful one. -/
theorem ScaleState.lawful.withD {ss ss' : ScaleState} (h : ss.lawful) {d : Nat} (hd : isOffset d) (he : ss'.d = some d)
    (hs : ss'.status ≠ .unknown) (hz : ss'.zones = ss.zones) (ht : ss'.tally = ss.tally)
    (hy : ss'.yieldValue = ss.yieldValue ∨ ss'.yieldValue = none) : ss'.lawful := by
  obtain ⟨-, hzones, htally, hyield⟩ := h
  refine ⟨⟨by simp [hs, he], fun x hx => ?_⟩, ?_, ?_, fun v hv => ?_⟩
  · obtain rfl : d = x := by simpa [he] using hx
    exact hd
  · rwa [ScaleState.zonesLaw, hz]
  · rwa [ht]
  · rcases hy with hy | hy
    · exact hyield v (hy ▸ hv)
    · rw [hy] at hv; cases hv

/-- A lawful state of the scale that holds a D has a known status, and its D is a value of D (R120). -/
theorem ScaleState.lawful.of_some {ss : ScaleState} (h : ss.lawful) {d : Nat} (hd : ss.d = some d) :
    ss.status ≠ .unknown ∧ isOffset d := by
  refine ⟨fun hu => ?_, h.offset.2 d hd⟩
  rw [h.offset.1.1 hu] at hd
  cases hd

theorem Key.sound.offset {k : Key} (h : k.sound) (hk : k.kind = .offsetSet) {v : Int} (hv : k.value = some v) :
    isOffset v.toNat := by
  simp only [Key.sound, hk] at h
  obtain ⟨w, hw, h10, h255⟩ := h
  obtain rfl : w = v := by simpa [hw] using hv
  unfold isOffset
  omega

theorem Key.sound.shift {k : Key} (h : k.sound) (hk : k.kind = .localShift) {v : Int} (hv : k.value = some v) :
    zoneOffsetOk v = true := by
  simp only [Key.sound, hk] at h
  obtain ⟨w, z, hw, -, -, ho⟩ := h
  obtain rfl : w = v := by simpa [hw] using hv
  exact ho

/-- A change that may be applied keeps the law of the scale (R124 to R128). -/
theorem ScaleWork.apply_lawful {w : ScaleWork} (h : w.ss.lawful) (load : LoadIndication) (t : Nat) {due : Key × Int}
    (hk : due.1.sound) : (w.apply load t due).ss.lawful := by
  unfold ScaleWork.apply
  dsimp only
  split
  · rename_i _ d _ hd
    obtain ⟨hu, h10, h255⟩ := h.of_some hd
    split
    · exact h
    · exact h.withD (d := d + 1) ⟨by omega, by omega⟩ rfl hu rfl rfl (.inl rfl)
  · rename_i _ d _ hd
    obtain ⟨hu, h10, h255⟩ := h.of_some hd
    split
    · exact h
    · exact h.withD (d := d - 1) ⟨by omega, by omega⟩ rfl hu rfl rfl (.inl rfl)
  · rename_i d v hkind hd hv
    exact h.withD (hk.offset hkind hv) rfl (h.of_some hd).1 rfl rfl (.inl rfl)
  · rename_i v hkind hv
    refine h.withZones ?_ fun z hz => ?_
    · exact List.length_set.trans h.zoneLength
    · rcases List.mem_or_eq_of_mem_set hz with hz | rfl
      · exact h.zoneOk z hz
      · exact hk.shift hkind hv
  · exact h

theorem ScaleWork.applyAll_lawful (load : LoadIndication) (t : Nat) {due : List (Key × Int)} {w : ScaleWork}
    (h : w.ss.lawful) (hk : ∀ x ∈ due, x.1.sound) : (w.applyAll load t due).ss.lawful := by
  induction due generalizing w with
  | nil => exact h
  | cons x due ih =>
    obtain ⟨hx, hr⟩ := List.forall_mem_cons.1 hk
    exact ih (ScaleWork.apply_lawful h load t hx) hr

/-- The leading value of a lawful tally is a value of D (R130, R131). -/
theorem ScaleState.lawful.leader {ss : ScaleState} (h : ss.lawful) {qmin : Nat} {l : Nat × Nat}
    (hl : ss.leader qmin = some l) : isOffset l.1 :=
  h.tallied l (List.mem_of_find?_eq_some hl)

theorem ScaleState.lawful.yieldFor {ss : ScaleState} (h : ss.lawful) {qmin : Nat} {l : Nat × Nat}
    (hl : ss.yieldFor qmin = some l) : isOffset l.1 := by
  unfold ScaleState.yieldFor at hl
  split at hl
  · rename_i m hm
    split at hl
    · cases hl
    · obtain rfl := Option.some.inj hl
      exact h.leader hm
  · cases hl

/-- Another yield value leaves the rest of the law. -/
theorem ScaleState.lawful.withYield {ss : ScaleState} (h : ss.lawful) {v : Option Nat} (hv : ∀ x ∈ v, isOffset x)
    (timer : Nat) : { ss with yieldValue := v, yieldTimer := timer }.lawful :=
  ⟨h.offset, ⟨h.zoneLength, h.zoneOk⟩, h.tallied, hv⟩

theorem ScaleWork.acquire_lawful {w : ScaleWork} (h : w.ss.lawful) (t count : Nat) {v : Nat} (hv : isOffset v) :
    (w.acquire t v count).ss.lawful :=
  h.withD hv rfl (by simp [ScaleWork.acquire]) rfl rfl (.inr rfl)

theorem ScaleWork.yield_lawful {w : ScaleWork} (h : w.ss.lawful) (hs : w.ss.status ≠ .unknown) (t count : Nat) {v : Nat}
    (hv : isOffset v) : (w.yield t v count).ss.lawful :=
  h.withD hv rfl hs rfl rfl (.inr rfl)

/-- Step 4 keeps the law (R130 to R132). -/
theorem ScaleWork.decide_lawful {w : ScaleWork} (h : w.ss.lawful) (params : Option Params) (t : Nat) :
    (w.decide params t).ss.lawful := by
  have hclear : { w.ss with yieldValue := none, yieldTimer := 0 }.lawful := h.withYield (by simp) 0
  have hacquire (p : Params) : (match w.ss.leader p.qmin with
      | some l => w.acquire t l.1 l.2
      | none => { w with ss := { w.ss with yieldValue := none, yieldTimer := 0 } }).ss.lawful := by
    split
    · rename_i hl
      exact ScaleWork.acquire_lawful h t _ (h.leader hl)
    · exact hclear
  unfold ScaleWork.decide
  split
  · exact h
  · rename_i p
    split
    · exact hacquire p
    · exact hacquire p
    · rename_i hs
      split
      · rename_i l hl
        have hv := h.yieldFor hl
        have ht : (w.ss.timed l.1).lawful := h.withYield (by simpa using hv) _
        dsimp only
        split
        · exact ScaleWork.yield_lawful ht (by simp [ScaleState.timed, hs]) t _ hv
        · exact ht
      · exact hclear

/-- Step 5 puts the state of the scale and leaves the hand-overs that wait. -/
theorem State.giveScaleWork_scale (s : State) (ofEdge : Bool) (t : Option Nat) (before : ScaleState) (events : List Event)
    (w : ScaleWork) :
    (s.giveScaleWork ofEdge t before events w).ss = w.ss
      ∧ (s.giveScaleWork ofEdge t before events w).mail.handOver = s.mail.handOver := by
  have hp (u : State) (r : HistoryRecord) :
      ((u.postRecord r).ss, (u.postRecord r).mail.handOver) = (u.ss, u.mail.handOver) :=
    reads_alike State.outsideStore (fun u : State => (u.ss, u.mail.handOver)) (fun _ => rfl) (u.postRecord_outsideStore r)
  have hn (u : State) :
      ((u.scaleNotices ofEdge before).ss, (u.scaleNotices ofEdge before).mail.handOver) = (u.ss, u.mail.handOver) := by
    unfold State.scaleNotices
    split <;> rfl
  have hf := foldl_keeps (fun u : State => (u.ss, u.mail.handOver)) State.postRecord hp w.records
  simp only [Prod.mk.injEq] at hf hn
  simp only [State.giveScaleWork, hf, hn, State.raiseAllAt_ss, State.raiseAllAt_mail, and_self]

/-- Step 5 with a lawful state of the scale keeps the law. -/
theorem State.giveScaleWork_scaleLaw {s : State} (h : s.scaleLaw) (ofEdge : Bool) (t : Option Nat) (before : ScaleState)
    (events : List Event) {w : ScaleWork} (hw : w.ss.lawful) : (s.giveScaleWork ofEdge t before events w).scaleLaw := by
  obtain ⟨hsi, hpt, -, hk⟩ := s.scaleLaw_iff.1 h
  obtain ⟨hss, hh⟩ := s.giveScaleWork_scale ofEdge t before events w
  have hr : ((s.giveScaleWork ofEdge t before events w).si, (s.giveScaleWork ofEdge t before events w).pt,
      (s.giveScaleWork ofEdge t before events w).ct) = (s.si, s.pt, s.ct) :=
    reads_alike State.outsideScale (fun u : State => (u.si, u.pt, u.ct)) (fun _ => rfl)
      (s.giveScaleWork_outsideScale ofEdge t before events w)
  simp only [Prod.mk.injEq] at hr
  obtain ⟨hsi', hpt', hct'⟩ := hr
  refine (State.scaleLaw_iff _).2 ⟨hsi'.symm ▸ hsi, hpt'.symm ▸ hpt, hss.symm ▸ hw, ?_⟩
  exact hk.congr (by rw [hct']) hh

/-- The edge work keeps the law where the due changes may be applied (R123). -/
theorem State.edgeWork_scaleLaw {s : State} (h : s.scaleLaw) {given : HandOver} (hg : ∀ x ∈ given.due, x.1.sound) :
    (s.edgeWork given).scaleLaw := by
  have hopened : (s.ss.startWork given.load).ss.lawful := h.scale
  have happlied := ScaleWork.applyAll_lawful given.load given.t hopened hg
  exact State.giveScaleWork_scaleLaw h _ _ _ _ (ScaleWork.decide_lawful happlied s.params given.t)

theorem State.takeHandOver_scaleLaw {s : State} (h : s.scaleLaw) : s.takeHandOver.scaleLaw := by
  unfold State.takeHandOver
  split
  · exact h
  · rename_i given rest hm
    obtain ⟨hsi, hpt, hss, hrecords, hwaiting⟩ := s.scaleLaw_iff.1 h
    rw [hm] at hwaiting
    obtain ⟨hgiven, hrest⟩ := List.forall_mem_cons.1 hwaiting
    have hleft : ({ s with mail := { s.mail with handOver := rest } } : State).scaleLaw :=
      (State.scaleLaw_iff _).2 ⟨hsi, hpt, hss, hrecords, hrest⟩
    exact State.edgeWork_scaleLaw hleft hgiven

theorem State.scaleYield_scaleLaw {s : State} (h : s.scaleLaw) : s.scaleYield.scaleLaw := by
  unfold State.scaleYield
  split
  · rename_i v _ hv
    split
    · rename_i hc
      have hss := h.scale
      refine State.giveScaleWork_scaleLaw h _ _ _ _ ?_
      exact ScaleWork.yield_lawful hss (by simp [hc.1]) _ _ (hss.yieldsTo v hv)
    · exact h
  · exact h

/-! ## The end of the scan (R121, R159) -/

/-- The newest of some slots is one of them. -/
theorem HistoryStore.newest_mem {h : HistoryStore} {slots : List Nat} {slot : Nat} (hn : h.newest slots = some slot) :
    slot ∈ slots := by
  have hfold (l : List Nat) (a : Option Nat) (hf : l.foldl h.newer a = some slot) : a = some slot ∨ slot ∈ l := by
    induction l generalizing a with
    | nil => exact .inl hf
    | cons b l ih =>
      rcases ih _ hf with hb | hb
      · unfold HistoryStore.newer at hb
        split at hb
        · exact .inr (List.mem_cons.2 (.inl (Option.some.inj hb).symm))
        · split at hb
          · exact .inr (List.mem_cons.2 (.inl (Option.some.inj hb).symm))
          · exact .inl hb
      · exact .inr (List.mem_cons_of_mem b hb)
  exact (hfold slots none hn).resolve_left nofun

/-- The D after of the scale record is a value of D (R159). -/
theorem HistoryStore.scaleSlot_isOffset {h : HistoryStore} {slot : Nat} (hs : h.scaleSlot = some slot) :
    isOffset (byteAt (h.array.slot slot) 12) := by
  have hg := (List.mem_filter.1 (HistoryStore.newest_mem hs)).2
  simp only [HistoryStore.givesScale, Bool.and_eq_true, decide_eq_true_eq] at hg
  exact ⟨hg.2, Nat.le_of_lt_succ ((h.array.slot slot).getD 12 0).isLt⟩

theorem zoneFromStore_ok (units : Int) : zoneOffsetOk (zoneFromStore (15 * units)) = true := by
  unfold zoneFromStore
  split
  · simp only [zoneOffsetOk, Bool.and_eq_true, decide_eq_true_eq, beq_iff_eq]
    omega
  · rfl

/-- The scan's result keeps the law where its D is a value of D (R121, R122). -/
theorem State.takeScan_scaleLaw {s : State} (h : s.scaleLaw) {result : Option (List Byte)}
    (hr : ∀ b ∈ result, isOffset (byteAt b 12)) : (s.takeScan result).scaleLaw := by
  cases result with
  | none => exact h
  | some b =>
    obtain ⟨hsi, hpt, hss, hk⟩ := s.scaleLaw_iff.1 h
    have hzones := hss.withZones (zones := (slotZones b).map zoneFromStore) rfl <| by
      simp only [slotZones, List.map_cons, List.map_nil, List.forall_mem_cons, zoneFromStore_ok, true_and]
      exact fun _ hz => nomatch hz
    exact (State.scaleLaw_iff _).2 ⟨hsi, hpt, hzones.withD (hr b rfl) rfl nofun rfl rfl (.inl rfl), hk⟩

theorem State.scanEnd_scaleLaw {s : State} (h : s.scaleLaw) : s.scanEnd.scaleLaw := by
  unfold State.scanEnd
  split
  · refine (State.keepsScale.of_store (State.settleStore_outsideStore _)).1 (State.takeScan_scaleLaw ?_ fun b hb => ?_)
    · exact h
    · obtain ⟨slot, hslot, rfl⟩ := Option.map_eq_some_iff.1 hb
      exact HistoryStore.scaleSlot_isOffset hslot
  · exact h

/-! ## Resets -/

theorem State.afterReset_scaleLaw (s : State) : s.afterReset.scaleLaw := by
  refine (State.scaleLaw_iff _).2 ⟨?_, ?_, ?_, ?_⟩
  · simp [State.afterReset, SourceIntake.reset, SourceIntake.reportsD, SourceRecord.reportsD, SourceRecord.reset]
  · simp [State.afterReset, PeerTable.reset, PeerTable.carriesD]
  · simp [State.afterReset, ScaleState.reset, ScaleState.lawful, ScaleState.offsetLaw, ScaleState.zonesLaw, zoneOffsetOk]
  · simp [State.afterReset, CandidateTable.reset, Mail.reset, State.keysSound]

theorem State.endReset_scaleLaw {s : State} (h : s.scaleLaw) : s.endReset.scaleLaw := by
  unfold State.endReset
  split
  · exact s.afterReset_scaleLaw
  · exact h

/-! ## The law kept by every command -/

theorem State.unlessHeld_scaleLaw {s u : State} (h : s.scaleLaw) (hu : u.scaleLaw) :
    (if s.held then s else u).scaleLaw := by
  split
  · exact h
  · exact hu

theorem exec_scaleLaw {c : Instr} {s t : State} (h : s.scaleLaw) (ht : exec c s = .next t) : t.scaleLaw := by
  by_cases hh : c = .handOver
  · subst hh
    obtain rfl := Host.Outcome.next.inj ht
    exact State.unlessHeld_scaleLaw h (State.takeHandOver_scaleLaw h)
  by_cases hy : c = .scaleYielded
  · subst hy
    obtain rfl := Host.Outcome.next.inj ht
    exact State.unlessHeld_scaleLaw h (State.scaleYield_scaleLaw h)
  by_cases hs : c = .scanEnd
  · subst hs
    obtain rfl := Host.Outcome.next.inj ht
    exact State.unlessHeld_scaleLaw h (State.scanEnd_scaleLaw h)
  by_cases hr : c = .resetEnd
  · subst hr
    obtain rfl := Host.Outcome.next.inj ht
    exact State.endReset_scaleLaw h
  exact (exec_keepsScale s hh hy hs hr t ht).1 h

theorem step_scaleLaw {s t : State} (h : s.scaleLaw) (ht : step s = .next t) : t.scaleLaw := by
  unfold step at ht
  split at ht
  · obtain rfl := Host.Outcome.next.inj ht
    exact h
  · rename_i rest _
    have hp : ({ s with pending := rest } : State).scaleLaw := h
    exact exec_scaleLaw hp ht

/-- Settles O49: the law of the scale is read off five parts of the state, block by block; every command but the four that move the
scale keeps D, the status and the law, and those four keep the law. -/
theorem scaleLawKept : Obligations.ScaleLawKept :=
  ⟨fun _ _ h ht => step_scaleLaw h ht, fun _ s t ht hh hy hs hr => (exec_keepsScale s hh hy hs hr t ht).2⟩

end Sys2Proof.Machine
end

section
/-! SET_OPERATOR_ENTRY: the check of its items, and what each case leaves (R53 to R55). -/

namespace Sys2Proof.Machine

/-! ## What the check of an item asks (R53) -/

/-- An item is in range behind the items before it: a valid key, a decision, and no earlier item's key. -/
def State.itemRanged (s : State) (before : List OperatorRequest) (r : OperatorRequest) : Prop :=
  ∃ key decision, r.key = some key ∧ r.decision = some decision
    ∧ key.valid (if s.ss.status = .unknown then none else s.ss.d) = true ∧ ∀ e ∈ before, e.key ≠ some key

/-- An item comes too late: its epoch is no more than two seconds ahead, where the time is SET and the scale known. -/
def State.itemLate (s : State) (r : OperatorRequest) : Prop :=
  ∃ key d, r.key = some key ∧ s.tb.timeState = .set ∧ s.ss.status ≠ .unknown ∧ s.ss.d = some d
    ∧ key.epoch d - 2 ≤ (s.tb.t : Int)

/-- The item at an index of the list, if there is one, passes behind the items before it. -/
def State.itemPasses (s : State) (before rs : List OperatorRequest) (i : Nat) : Prop :=
  ∀ r, rs[i]? = some r → s.itemRanged (before ++ rs.take i) r ∧ ¬s.itemLate r

/-- The item at an index is the first that fails, and fails in this way. -/
def State.itemFails (s : State) (before rs : List OperatorRequest) (fault : ItemFault) (i : Nat) : Prop :=
  ∃ r, rs[i]? = some r ∧ (∀ j, j < i → s.itemPasses before rs j)
    ∧ (fault = .range ∧ ¬s.itemRanged (before ++ rs.take i) r
      ∨ fault = .late ∧ s.itemRanged (before ++ rs.take i) r ∧ s.itemLate r)

theorem State.itemPasses_zero (s : State) (before rest : List OperatorRequest) (r : OperatorRequest) :
    s.itemPasses before (r :: rest) 0 ↔ s.itemRanged before r ∧ ¬s.itemLate r := by
  simp [State.itemPasses]

theorem State.itemPasses_succ (s : State) (before rest : List OperatorRequest) (r : OperatorRequest) (i : Nat) :
    s.itemPasses before (r :: rest) (i + 1) ↔ s.itemPasses (before ++ [r]) rest i := by
  simp [State.itemPasses]

/-- Every item of a list passes where the first does and the rest do behind it. -/
theorem State.itemPasses_cons (s : State) (before rest : List OperatorRequest) (r : OperatorRequest) :
    (∀ i, s.itemPasses before (r :: rest) i)
      ↔ (s.itemRanged before r ∧ ¬s.itemLate r) ∧ ∀ i, s.itemPasses (before ++ [r]) rest i := by
  rw [← s.itemPasses_zero before rest r]
  constructor
  · exact fun h => ⟨h 0, fun i => (s.itemPasses_succ before rest r i).1 (h (i + 1))⟩
  · rintro ⟨h0, hs⟩ (_ | i)
    · exact h0
    · exact (s.itemPasses_succ before rest r i).2 (hs i)

theorem State.itemFails_zero (s : State) (before rest : List OperatorRequest) (r : OperatorRequest) (fault : ItemFault) :
    s.itemFails before (r :: rest) fault 0
      ↔ fault = .range ∧ ¬s.itemRanged before r ∨ fault = .late ∧ s.itemRanged before r ∧ s.itemLate r := by
  simp [State.itemFails]

theorem State.itemFails_succ (s : State) (before rest : List OperatorRequest) (r : OperatorRequest) (fault : ItemFault)
    (i : Nat) :
    s.itemFails before (r :: rest) fault (i + 1)
      ↔ (s.itemRanged before r ∧ ¬s.itemLate r) ∧ s.itemFails (before ++ [r]) rest fault i := by
  have hj : (∀ j, j < i + 1 → s.itemPasses before (r :: rest) j)
      ↔ (s.itemRanged before r ∧ ¬s.itemLate r) ∧ ∀ j, j < i → s.itemPasses (before ++ [r]) rest j := by
    rw [← s.itemPasses_zero before rest r]
    constructor
    · exact fun h => ⟨h 0 (by omega), fun j hj => (s.itemPasses_succ before rest r j).1 (h (j + 1) (by omega))⟩
    · rintro ⟨h0, hs⟩ (_ | j) hj
      · exact h0
      · exact (s.itemPasses_succ before rest r j).2 (hs j (by omega))
  simp only [State.itemFails, hj, List.getElem?_cons_succ, List.take_succ_cons, List.append_assoc, List.singleton_append]
  constructor
  · rintro ⟨x, hx, ⟨h0, hs⟩, hf⟩
    exact ⟨h0, x, hx, hs, hf⟩
  · rintro ⟨h0, x, hx, hs, hf⟩
    exact ⟨x, hx, ⟨h0, hs⟩, hf⟩

/-! ## The check (R53) -/

/-- The three outcomes of the check of an item, whose earlier keys are those of the items before it. -/
theorem State.checkItem_cases (s : State) (position : Nat) {earlier : List Key} {before : List OperatorRequest}
    (r : OperatorRequest) (hb : before.map (·.key) = earlier.map some) :
    (¬s.itemRanged before r ∧ s.checkItem position earlier r = .error .range)
      ∨ (s.itemRanged before r ∧ s.itemLate r ∧ s.checkItem position earlier r = .error .late)
      ∨ ∃ i, (s.itemRanged before r ∧ ¬s.itemLate r) ∧ s.checkItem position earlier r = .ok i ∧ i.position = position
        ∧ r.key = some i.key ∧ r.decision = some i.decision := by
  obtain ⟨key, decision⟩ := r
  cases key with
  | none => exact .inl ⟨by simp [State.itemRanged], rfl⟩
  | some key =>
    cases decision with
    | none => exact .inl ⟨by simp [State.itemRanged], rfl⟩
    | some decision =>
      have hmem : (∃ e ∈ before, e.key = some key) ↔ key ∈ earlier := by
        rw [← List.mem_map (f := OperatorRequest.key), hb, List.mem_map]
        simp
      have hr : s.itemRanged before { key := some key, decision := some decision }
          ↔ ¬(!key.valid s.operatorD || earlier.contains key) = true := by
        simp only [State.itemRanged, State.operatorD, Option.some.injEq, Bool.or_eq_true, Bool.not_eq_true',
          List.contains_iff_mem, ← hmem]
        constructor
        · rintro ⟨_, _, rfl, rfl, hv, hn⟩ (h | ⟨e, he, hk⟩)
          · exact absurd (h.symm.trans hv) nofun
          · exact hn e he hk
        · intro h
          exact ⟨key, decision, rfl, rfl, Bool.not_eq_false _ ▸ fun hv => h (.inl hv), fun e he hk => h (.inr ⟨e, he, hk⟩)⟩
      have hl : s.itemLate { key := some key, decision := some decision }
          ↔ (s.scaled && s.lateFor (key.epoch s.dNow)) = true := by
        cases hd : s.ss.d <;> simp [State.itemLate, State.scaled, State.lateFor, State.dNow, hd, and_assoc]
      simp only [hr, hl, State.checkItem]
      split
      · exact .inl ⟨fun h => h ‹_›, rfl⟩
      · split
        · exact .inr (.inl ⟨‹_›, ‹_›, rfl⟩)
        · exact .inr (.inr ⟨_, ⟨‹_›, ‹_›⟩, rfl, rfl, rfl, rfl⟩)

/-- Behind an item that passes, the check answers that item and those of the rest. -/
theorem State.checkItems_cons_ok_iff {s : State} {p : Nat} {earlier : List Key} {r : OperatorRequest} {i : OperatorItem}
    (h : s.checkItem p earlier r = .ok i) (rest : List OperatorRequest) (is : List OperatorItem) :
    s.checkItems p earlier (r :: rest) = .ok is
      ↔ ∃ more, is = i :: more ∧ s.checkItems (p + 1) (earlier ++ [i.key]) rest = .ok more := by
  simp only [State.checkItems, h]
  cases s.checkItems (p + 1) (earlier ++ [i.key]) rest <;> simp [eq_comm]

/-- Behind an item that passes, the check fails where that of the rest does. -/
theorem State.checkItems_cons_error_iff {s : State} {p : Nat} {earlier : List Key} {r : OperatorRequest} {i : OperatorItem}
    (h : s.checkItem p earlier r = .ok i) (rest : List OperatorRequest) (e : ItemFault × Nat) :
    s.checkItems p earlier (r :: rest) = .error e ↔ s.checkItems (p + 1) (earlier ++ [i.key]) rest = .error e := by
  simp only [State.checkItems, h]
  cases s.checkItems (p + 1) (earlier ++ [i.key]) rest <;> simp

/-- At an item that fails the check stops. -/
theorem State.checkItems_cons_stops {s : State} {p : Nat} {earlier : List Key} {r : OperatorRequest} {fault : ItemFault}
    (h : s.checkItem p earlier r = .error fault) (rest : List OperatorRequest) :
    s.checkItems p earlier (r :: rest) = .error (fault, p) := by
  simp only [State.checkItems, h]

/-- The positions of a list of items from `p` on. -/
theorem positions_succ (n p : Nat) :
    (List.range (n + 1)).map (fun k => k + p) = p :: (List.range n).map (fun k => k + (p + 1)) := by
  rw [List.range_succ_eq_map, List.map_cons, List.map_map, Nat.zero_add]
  exact congrArg _ (List.map_congr_left fun k _ => by simp only [Function.comp_apply]; omega)

/-- The check answers the items where every one passes, each at its position. -/
theorem State.checkItems_ok_iff (s : State) (rs : List OperatorRequest) (p : Nat) {earlier : List Key}
    {before : List OperatorRequest} (hb : before.map (·.key) = earlier.map some) (is : List OperatorItem) :
    s.checkItems p earlier rs = .ok is
      ↔ (∀ i, s.itemPasses before rs i)
        ∧ rs.map (fun r => (r.key, r.decision)) = is.map (fun i => (some i.key, some i.decision))
        ∧ is.map (fun i => i.position) = (List.range rs.length).map (fun n => n + p) := by
  induction rs generalizing p earlier before is with
  | nil => cases is <;> simp [State.checkItems, State.itemPasses]
  | cons r rest ih =>
    rw [s.itemPasses_cons]
    rcases s.checkItem_cases p r hb with ⟨hn, he⟩ | ⟨hr, hl, he⟩ | ⟨i, hp, he, hi, hk, hd⟩
    · simp [State.checkItems_cons_stops he, hn]
    · simp [State.checkItems_cons_stops he, hl]
    · have hb' : (before ++ [r]).map (·.key) = (earlier ++ [i.key]).map some := by simp [hb, hk]
      rw [State.checkItems_cons_ok_iff he, List.length_cons, positions_succ]
      constructor
      · rintro ⟨more, rfl, hm⟩
        obtain ⟨hall, hitems, hpos⟩ := (ih (p + 1) hb' more).1 hm
        exact ⟨⟨hp, hall⟩, by rw [List.map_cons, List.map_cons, hitems, hk, hd], by rw [List.map_cons, hpos, hi]⟩
      · rintro ⟨⟨-, hall⟩, hitems, hpos⟩
        cases is with
        | nil => cases hitems
        | cons x more =>
          simp only [List.map_cons, List.cons.injEq, Prod.mk.injEq, hk, hd, Option.some.injEq] at hitems hpos
          obtain ⟨⟨hxk, hxd⟩, hitems⟩ := hitems
          obtain ⟨hxp, hpos⟩ := hpos
          have hx : x = i := by
            cases x; cases i
            simp_all
          exact ⟨more, by rw [hx], (ih (p + 1) hb' more).2 ⟨hall, hitems, hpos⟩⟩

theorem State.checkItems_error_iff (s : State) (rs : List OperatorRequest) (p : Nat) {earlier : List Key}
    {before : List OperatorRequest} (hb : before.map (·.key) = earlier.map some) (fault : ItemFault) (q : Nat) :
    s.checkItems p earlier rs = .error (fault, q) ↔ ∃ i, q = p + i ∧ s.itemFails before rs fault i := by
  induction rs generalizing p earlier before with
  | nil => simp [State.checkItems, State.itemFails]
  | cons r rest ih =>
    have hsplit : (∃ i, q = p + i ∧ s.itemFails before (r :: rest) fault i)
        ↔ (q = p ∧ s.itemFails before (r :: rest) fault 0)
          ∨ ∃ i, q = p + 1 + i ∧ s.itemFails before (r :: rest) fault (i + 1) := by
      constructor
      · rintro ⟨_ | i, rfl, h⟩
        · exact .inl ⟨rfl, h⟩
        · exact .inr ⟨i, by omega, h⟩
      · rintro (⟨rfl, h⟩ | ⟨i, rfl, h⟩)
        · exact ⟨0, rfl, h⟩
        · exact ⟨i + 1, by omega, h⟩
    rw [hsplit, s.itemFails_zero]
    simp only [s.itemFails_succ]
    rcases s.checkItem_cases p r hb with ⟨hn, he⟩ | ⟨hr, hl, he⟩ | ⟨i, hp, he, hi, hk, hd⟩
    · rw [State.checkItems_cons_stops he]
      simp [hn, eq_comm, and_comm]
    · rw [State.checkItems_cons_stops he]
      simp [hr, hl, eq_comm, and_comm]
    · have hb' : (before ++ [r]).map (·.key) = (earlier ++ [i.key]).map some := by simp [hb, hk]
      rw [State.checkItems_cons_error_iff he, ih (p + 1) hb']
      simp [hp]

/-! ## The command (R53, R54) -/

/-- The check reads the time and the scale alone. -/
theorem State.checkItems_congr {a b : State} (ht : a.tb = b.tb) (hs : a.ss = b.ss) (p : Nat) (earlier : List Key)
    (rs : List OperatorRequest) : a.checkItems p earlier rs = b.checkItems p earlier rs := by
  induction rs generalizing p earlier with
  | nil => rfl
  | cons r rest ih =>
    have hc : a.checkItem p earlier r = b.checkItem p earlier r := by
      unfold State.checkItem State.operatorD State.scaled State.lateFor State.dNow
      rw [ht, hs]
    simp only [State.checkItems, hc, ih]

/-- The state with a command's request taken (R170). -/
def State.requested (s : State) (code : Nat) (payload : List Byte) : State :=
  { s with cp := { s.cp with request := s.cp.request ++ commandBytes code payload } }

theorem State.requested_respond (s : State) (code : Nat) (payload : List Byte) (status : Status) (body : List Byte) :
    (s.requested code payload).respond status body = s.answered code payload status body := rfl

/-- SET_OPERATOR_ENTRY with its form right acts on the state with its request taken (R170, R172). -/
theorem exec_setOperatorEntry {s : State} {payload : List Byte} (ha : s.accepting) (hf : operatorForm payload = true) :
    exec (.setOperatorEntry payload) s = .next ((s.requested 4 payload).setOperatorEntry payload) := by
  show Host.Outcome.next _ = _
  rw [State.takeCommand_acts 4 payload _ ha.1 ha.2, if_pos hf]
  rfl

section
variable {s : State} {payload : List Byte}

theorem State.setOperatorEntry_dormant (h : s.params = none) : s.setOperatorEntry payload = s.refuse := by
  simp [State.setOperatorEntry, State.commissioned, h]

theorem State.setOperatorEntry_long (h : s.params.isSome = true) (hc : 2 < byteAt payload 0) :
    s.setOperatorEntry payload = s.outOfRange 1 := by
  simp [State.setOperatorEntry, State.commissioned, h, hc]

variable (h : s.params.isSome = true) (hc : byteAt payload 0 ≤ 2)
include h hc

theorem State.setOperatorEntry_range {p : Nat} (hi : s.checkItems 1 [] (readOperatorItems payload) = .error (.range, p)) :
    s.setOperatorEntry payload = s.outOfRange (1 + p) := by
  simp [State.setOperatorEntry, State.commissioned, h, Nat.not_lt.2 hc, hi]

theorem State.setOperatorEntry_late {p : Nat} (hi : s.checkItems 1 [] (readOperatorItems payload) = .error (.late, p)) :
    s.setOperatorEntry payload = s.respond .late [small p] := by
  simp [State.setOperatorEntry, State.commissioned, h, Nat.not_lt.2 hc, hi]

theorem State.setOperatorEntry_mismatch {is : List OperatorItem}
    (hi : s.checkItems 1 [] (readOperatorItems payload) = .ok is) (hv : fieldAt payload 1 2 ≠ s.ct.version) :
    s.setOperatorEntry payload = s.respond .versionMismatch (beBytes 2 s.ct.version ++ operatorBytes s.si.operator) := by
  simp [State.setOperatorEntry, State.commissioned, h, Nat.not_lt.2 hc, hi, hv]

theorem State.setOperatorEntry_replaces {is : List OperatorItem}
    (hi : s.checkItems 1 [] (readOperatorItems payload) = .ok is) (hv : fieldAt payload 1 2 = s.ct.version) :
    s.setOperatorEntry payload = s.replaceOperator is := by
  simp [State.setOperatorEntry, State.commissioned, h, Nat.not_lt.2 hc, hi, hv]

end

/-- Settles O28: the check of the items by induction on the list, and the command case by case. -/
theorem setOperatorEntryReplacesWhole : Obligations.SetOperatorEntryReplacesWhole := by
  refine ⟨fun s rs => ⟨fun is => ?_, fun fault p => ?_⟩, fun payload s ha hf => ?_⟩
  · exact s.checkItems_ok_iff rs 1 (before := []) rfl is
  · rw [s.checkItems_error_iff rs 1 (before := []) rfl fault p]
    constructor
    · rintro ⟨i, rfl, r, hr⟩
      exact ⟨i, r, Nat.add_comm 1 i, hr⟩
    · rintro ⟨i, r, rfl, hr⟩
      exact ⟨i, Nat.add_comm i 1, r, hr⟩
  · have hcheck : s.checkItems 1 [] (readOperatorItems payload) =
        (s.requested 4 payload).checkItems 1 [] (readOperatorItems payload) := by
      apply State.checkItems_congr <;> rfl
    dsimp only
    rw [exec_setOperatorEntry ha hf, hcheck]
    refine ⟨fun h => ?_, fun h hc => ?_, fun h hc p hi => ?_, fun h hc p hi => ?_, fun h hc is hi hv => ?_,
      fun h hc is hi hv => ⟨_, rfl, ?_⟩⟩
    · rw [State.setOperatorEntry_dormant (s := s.requested 4 payload) h, State.refuse, State.requested_respond]
      rfl
    · rw [State.setOperatorEntry_long (s := s.requested 4 payload) h hc, State.outOfRange, State.requested_respond]
      rfl
    · rw [State.setOperatorEntry_range (s := s.requested 4 payload) h hc hi, State.outOfRange, State.requested_respond]
    · rw [State.setOperatorEntry_late (s := s.requested 4 payload) h hc hi, State.requested_respond]
    · rw [State.setOperatorEntry_mismatch (s := s.requested 4 payload) h hc hi hv, State.requested_respond]
      rfl
    · rw [State.setOperatorEntry_replaces (s := s.requested 4 payload) h hc hi hv]
      simp [State.replaceOperator, State.requested]

end Sys2Proof.Machine
end

section
/-! The Peer Table's commands of their own: PEER_SILENT, PEER_PURGE and the scale notice (R83 to R87). -/

namespace Sys2Proof.Machine

/-! ## What the shared operations leave -/

/-- Where the elements that pass a test are changed with one event each and the others are left, the list is mapped and the
events are those of the elements that pass. -/
theorem takeEach_ite {α : Type} (p : α → Bool) (g : α → α) (event : α → Event) (k : Nat) (l : List α) :
    takeEach (fun _ a => if p a then (g a, [event a]) else (a, [])) k l =
      (l.map (fun a => if p a then g a else a), (l.filter p).map event) := by
  induction l generalizing k with
  | nil => rfl
  | cons a rest ih => by_cases h : p a <;> simp [takeEach, ih, h]

theorem State.peerTimeout_eq {s : State} {p : Params} (h : s.params = some p) : s.peerTimeout = p.peerTimeout := by
  simp [State.peerTimeout, h]

@[simp] theorem State.peerNotices_pt (s : State) (before : PeerTable) : (s.peerNotices before).pt = s.pt := rfl

@[simp] theorem State.peerNotices_cp (s : State) (before : PeerTable) : (s.peerNotices before).cp = s.cp := rfl

@[simp] theorem State.putEntries_pt (s : State) (r : List PeerEntry × List Event) :
    (s.putEntries r).pt = { s.pt with entries := r.1 } := by
  simp [State.putEntries]

@[simp] theorem State.putEntries_mail (s : State) (r : List PeerEntry × List Event) : (s.putEntries r).mail = s.mail := by
  simp [State.putEntries]

theorem State.putEntries_cp (s : State) (r : List PeerEntry × List Event) : (s.putEntries r).cp = (s.raiseAll r.2).cp :=
  State.raiseAll_cp_congr r.2 rfl rfl

/-- Two states alike outside the Peer Table, its notices and the event queue are alike once the table, the notices and the
Control Port are put back. -/
theorem State.outsidePeers_frame {s t : State} (h : t.outsidePeers = s.outsidePeers) :
    { t with pt := s.pt, mail := s.mail, cp := s.cp } = s :=
  congrArg (fun u : State => { u with pt := s.pt, mail := s.mail, cp := s.cp }) h

/-! ## PEER_SILENT (R86) -/

/-- The entry of the address that PEER_SILENT names, LIVE and older than the peer timeout. -/
def PeerEntry.late (address timeout : Nat) (e : PeerEntry) : Bool :=
  decide (e.address = address ∧ e.state = .live ∧ timeout < e.age)

/-- What PEER_SILENT of an address does to an entry, with the one test of a late entry. -/
theorem silentEntry_of_address (address timeout : Nat) (e : PeerEntry) :
    (if e.address = address then silentEntry timeout e else (e, [])) =
      if e.late address timeout then ({ e with state := .silent }, [.peerSilent e.address e.age]) else (e, []) := by
  by_cases ha : e.address = address
  · simp [PeerEntry.late, silentEntry, ha]
  · simp [PeerEntry.late, ha]

/-- PEER_SILENT puts the entries with the late one SILENT, raises its event and gives the notices. -/
theorem State.peerSilent_eq (s : State) (address : Nat) :
    s.peerSilent address =
      (s.putEntries
        (s.pt.entries.map (fun e => if e.late address s.peerTimeout then { e with state := .silent } else e),
          (s.pt.entries.filter (PeerEntry.late address s.peerTimeout)).map
            (fun e => .peerSilent e.address e.age))).peerNotices s.pt := by
  simp only [State.peerSilent, silentEntry_of_address, takeEach_ite]

theorem State.peerSilent_peerNoticed (s : State) (address : Nat) : s.peerNoticed (s.peerSilent address) :=
  State.peerNotices_does s _ (s.putEntries_mail _)

theorem exec_peerSilent {s : State} (h : s.held = false) (address : Nat) :
    exec (.peerSilent address) s = .next (s.peerSilent address) := by
  change execPeerSilent address s = _
  simp [execPeerSilent, h]

/-! ## PEER_PURGE (R87) -/

theorem PeerEntry.purged_iff (timeout : Nat) (e : PeerEntry) :
    e.purged timeout = true ↔ e.state = .silent ∧ 9 * timeout < e.age := by
  simp [PeerEntry.purged]

/-- PEER_PURGE leaves the entries but the one of its address that has been SILENT long enough. -/
theorem State.peerPurge_pt (s : State) (address : Nat) :
    (s.peerPurge address).pt =
      { s.pt with
        entries :=
          s.pt.entries.filter
            (fun e => !decide (e.address = address ∧ e.state = .silent ∧ 9 * s.peerTimeout < e.age)) } := by
  have hkeep (e : PeerEntry) :
      (e.address == address && e.purged s.peerTimeout) =
        decide (e.address = address ∧ e.state = .silent ∧ 9 * s.peerTimeout < e.age) := by
    rw [Bool.eq_iff_iff, Bool.and_eq_true, beq_iff_eq, PeerEntry.purged_iff, decide_eq_true_iff]
  simp only [State.peerPurge, State.peerNotices_pt, hkeep]

theorem State.peerPurge_peerNoticed (s : State) (address : Nat) : s.peerNoticed (s.peerPurge address) :=
  State.peerNotices_does s _ rfl

theorem exec_peerPurge {s : State} (h : s.held = false) (address : Nat) :
    exec (.peerPurge address) s = .next (s.peerPurge address) := by
  change execPeerPurge address s = _
  simp [execPeerPurge, h]

/-! ## The scale notice (R83) -/

theorem State.splitsScale_eq (s : State) (e : PeerEntry) :
    s.splitsScale e =
      match e.view with
      | some v => decide (s.ss.status = .confirmed ∧ v.status = .confirmed ∧ s.ss.d ≠ some v.d)
      | none => false := by
  unfold State.splitsScale
  cases e.view with
  | none => rfl
  | some v => rw [Bool.eq_iff_iff]; simp [and_assoc]

/-- The table with the scale split of every entry found by a test. -/
def PeerTable.withSplits (split : PeerEntry → Bool) (pt : PeerTable) : PeerTable :=
  { pt with entries := pt.entries.map (fun e => { e with scaleSplit := split e }) }

theorem State.takePeerTableScale_pt (s : State) : s.takePeerTableScale.pt = s.pt.withSplits s.splitsScale := rfl

theorem State.takePeerTableScale_peerNoticed (s : State) : s.peerNoticed s.takePeerTableScale :=
  State.peerNotices_does s _ rfl

theorem exec_peerTableScaleNotice {s : State} (h : s.held = false) {notice : ScaleNotice} {rest : List ScaleNotice}
    (hm : s.mail.peerTableScale = notice :: rest) :
    exec .peerTableScaleNotice s =
      .next ({ s with mail := { s.mail with peerTableScale := rest } } : State).takePeerTableScale := by
  change execPeerTableScaleNotice s = _
  simp [execPeerTableScaleNotice, h, hm]

/-! ## The obligation -/

/-- Settles O31: the three commands one by one, each by what it leaves of the table, its notices and its frame. -/
theorem peersGoSilentAndArePurged : Obligations.PeersGoSilentAndArePurged := by
  intro a p s hheld hp
  refine ⟨⟨s.peerSilent a, exec_peerSilent hheld a, ?table, ?events, s.peerSilent_peerNoticed a,
      State.outsidePeers_frame (s.peerSilent_outsidePeers a)⟩,
    ⟨s.peerPurge a, exec_peerPurge hheld a, ?purged, s.peerPurge_peerNoticed a, rfl⟩,
    fun notice rest hm => ⟨_, exec_peerTableScaleNotice hheld hm, ?split, State.takePeerTableScale_peerNoticed _, rfl⟩⟩
  case table =>
    rw [s.peerSilent_eq, State.peerTimeout_eq hp, State.peerNotices_pt, State.putEntries_pt]
    rfl
  case events =>
    rw [s.peerSilent_eq, State.peerTimeout_eq hp, State.peerNotices_cp, State.putEntries_cp]
    rfl
  case purged => rw [s.peerPurge_pt, State.peerTimeout_eq hp]
  case split =>
    rw [State.takePeerTableScale_pt, funext (State.splitsScale_eq _)]
    rfl

end Sys2Proof.Machine
end

section
/-! The step of the machine, by the shape of the queue (log 1). -/

namespace Sys2Proof.Machine

theorem step_of_pending_nil {s : State} (h : s.pending = []) : step s = .next s := by
  rw [step, h]

theorem step_of_pending_cons {s : State} {c : Instr} {rest : List Instr} (h : s.pending = c :: rest) :
    step s = exec c { s with pending := rest } := by
  rw [step, h]

/-- Settles O1: the two shapes of the queue, each with its equation of the step. -/
theorem stepRunsTheFrontCommand : Obligations.StepRunsTheFrontCommand :=
  ⟨fun _ _ _ hfront => step_of_pending_cons hfront, fun _ hempty => step_of_pending_nil hempty⟩

end Sys2Proof.Machine
end
